-- ==== Sys2Proof/Word.lean ====
section
/-! DEFINITION. Word.lean: the words of Etch CORE and its fixed sizes (spec/00_scope.md rules R5, R9). -/

namespace Sys2Proof

/-- A sample: unsigned 10-bit value, domain [0,1023] (00_scope.md R5, 10_state.md R41). -/
abbrev Sample := BitVec 10

/-- The 20-bit word of the command port (30_encoding.md R70). -/
abbrev CommandWord := BitVec 20

/-- The 3-bit dispatch selector `{gate_en, mode}` of the tick engine (30_encoding.md R75). -/
abbrev Selector := BitVec 3

/-- `CENTER`, the 0 V sample value (00_scope.md R5). -/
abbrev center : Sample := 512#10

/-- The maximum representable sample (46_calibrate.md R192). -/
abbrev fullScale : Sample := 1023#10

/-- `N_SCALES`, the rows of the Scale Weight Table (00_scope.md R5). -/
abbrev nScales : Nat := 22

/-- `BUF_CAP`, the capacity of INBUF, OUTBUF and MORPHBUF (00_scope.md R5). -/
abbrev bufCap : Nat := 256

/-- `RVB_CAP` (00_scope.md R5). -/
abbrev rvbCap : Nat := 2048

/-- `BITTAB_LEN` (00_scope.md R5). -/
abbrev bittabLen : Nat := 1024

/-- `rebuild_idx` when no rebuild is in progress (10_state.md R40). -/
abbrev rebuildIdle : BitVec 11 := 1024#11

/-- The four engines the `mode` register selects (10_state.md R14). -/
inductive Mode where
  | idle
  | audio
  | cv
  | calibrate
  deriving DecidableEq, Repr, Inhabited

end Sys2Proof
end

