-- ==== Sys2Proof/Config.lean ====
section
/-! DEFINITION. Config.lean: what an implementation of Etch CORE fixes (the parameters of spec/00_scope.md rule R5)
and what the outside of the block brings (the draws and the schedule). Nothing in Lean can evaluate
`Config.params` or `Config.freeEvent`: a statement about the machine holds whatever they are. -/

namespace Sys2Proof

/-- The default staircase `min(1023, (i div w) * w)`, `w = 1 + (c >> 2)` (41_bit_reduction.md R111). It only shows
that the laws on `Params.stair` can be met; the machine uses `Config.params.stair`. -/
def stairDefault (c i : Sample) : Sample :=
  BitVec.ofNat 10 (min 1023 (i.toNat / (1 + c.toNat / 4) * (1 + c.toNat / 4)))

theorem stairDefault_toNat (c i : Sample) :
    (stairDefault c i).toNat = i.toNat / (1 + c.toNat / 4) * (1 + c.toNat / 4) := by
  have h : i.toNat / (1 + c.toNat / 4) * (1 + c.toNat / 4) ≤ i.toNat := Nat.div_mul_le_self _ _
  have hi : i.toNat < 1024 := i.isLt
  simp only [stairDefault, BitVec.toNat_ofNat]
  omega

theorem stairDefault_identity (i : Sample) : stairDefault 0 i = i := by
  apply BitVec.eq_of_toNat_eq
  rw [stairDefault_toNat]
  simp

theorem stairDefault_monotone (c i j : Sample) (h : i.toNat ≤ j.toNat) :
    (stairDefault c i).toNat ≤ (stairDefault c j).toNat := by
  rw [stairDefault_toNat, stairDefault_toNat]
  exact Nat.mul_le_mul_right _ (Nat.div_le_div_right h)

theorem stairDefault_step (c i j : Sample) :
    stairDefault c i = stairDefault c j ↔ i.toNat / (1 + c.toNat / 4) = j.toNat / (1 + c.toNat / 4) := by
  rw [← BitVec.toNat_inj, stairDefault_toNat, stairDefault_toNat]
  exact Nat.mul_left_inj (by omega)

/-- The default step width `w(c) = 1 + (c >> 2)` (41_bit_reduction.md R111). -/
def stairWidthDefault (c : Sample) : Nat := 1 + c.toNat / 4

theorem stairWidthDefault_monotone (c d : Sample) (h : c.toNat ≤ d.toNat) :
    stairWidthDefault c ≤ stairWidthDefault d := by
  unfold stairWidthDefault; omega

theorem stairWidthDefault_pos (c : Sample) : 1 ≤ stairWidthDefault c := by
  unfold stairWidthDefault; omega

/-- The stand-in Sample-Period Table of 95_test_vectors.md section 0. -/
def periodStandIn (i : Nat) : BitVec 16 := BitVec.ofNat 16 (2000 - i)

theorem periodStandIn_floor (i : Nat) (h : i < 1024) : 977 ≤ (periodStandIn i).toNat := by
  simp only [periodStandIn, BitVec.toNat_ofNat]
  omega

/-- The stand-in Scale Weight Table of 95_test_vectors.md section 0: row 0 permits all, row 1 the major scale. -/
def scaleStandIn (row col : Nat) : Sample :=
  if row = 0 then 1023#10
  else if row = 1 ∧ col ∈ [0, 2, 4, 5, 7, 9, 11] then 1023#10
  else 0#10

/-- The implementation parameters of 00_scope.md R5, each with the law the spec puts on it. The values after `:=`
are the test instantiation T of 95_test_vectors.md section 0; they show that the laws can be met together and serve
the tests, and no meaning uses them. Log 1. -/
structure Params where
  /-- `EASE`, entries in [0,255], index 0 to 256 (10_state.md R44); contents open. -/
  ease : Nat → BitVec 8 := fun i => BitVec.ofNat 8 (min i 255)
  /-- `PERIOD_TABLE`, entries of 16 bits, index 0 to 1023 (10_state.md R44); contents open. -/
  periodTable : Nat → BitVec 16 := periodStandIn
  /-- `MIN_PERIOD`, open. -/
  minPeriod : Nat := 977
  /-- `N_OCT`; "no rule depends on it" (00_scope.md R5). -/
  nOct : Nat := 9
  /-- `SCALE_W`, 22 rows of 12, entries in [0,1023] (10_state.md R44); contents open. -/
  scaleW : Nat → Nat → Sample := scaleStandIn
  /-- `CV_DIV`, the coarse clock divider ratio in CV mode. -/
  cvDiv : Nat := 128
  /-- `JITTER_RANGE`. -/
  jitterRange : Nat := 64
  /-- `CUTOFF`, a natural number (42_filter_chain.md R121). -/
  cutoff : Nat := 128
  /-- `FB_NUM`, scale of the inverted feedback copy (42_filter_chain.md R123). -/
  fbNum : Nat := 1
  /-- `FB_DEN`. -/
  fbDen : Nat := 1
  /-- `FB_LO`; DEDUCED to lie in the sample domain, log 3. -/
  fbLo : Sample := 0#10
  /-- `FB_HI`; DEDUCED to lie in the sample domain, log 3. -/
  fbHi : Sample := 1023#10
  /-- `STAIR(c, i)` (41_bit_reduction.md R111); property P4 is its type. -/
  stair : Sample → Sample → Sample := stairDefault
  /-- The step width `w(c)` of `STAIR(c, .)` (41_bit_reduction.md R111 P3); `stair_step` says what a step is. -/
  stairWidth : Sample → Nat := stairWidthDefault
  /-- `SENTINEL`, the "not yet initialized" marker (00_scope.md R5, 10_state.md R36, R37). Log 18. -/
  sentinel : BitVec 16 := 0xFFFF#16
  /-- `INIT_INBUF` (10_state.md R41, R48). Log 12. -/
  initInbuf : Nat → Sample := fun _ => 512#10
  /-- `INIT_OUTBUF`. Log 12. -/
  initOutbuf : Nat → Sample := fun _ => 512#10
  /-- `INIT_MORPHBUF`. Log 12. -/
  initMorphbuf : Nat → Sample := fun _ => 512#10
  /-- `INIT_RVB`. Log 12. -/
  initRvb : Nat → Sample := fun _ => 512#10
  /-- "every entry >= `MIN_PERIOD`" (10_state.md R44). -/
  period_floor : ∀ i, i < 1024 → minPeriod ≤ (periodTable i).toNat := by exact periodStandIn_floor
  /-- The divider counts from `CV_DIV` in [1, CV_DIV] (10_state.md R29). -/
  cvDiv_pos : 1 ≤ cvDiv := by decide
  /-- `J = JITTER_RANGE >= 1` (45_cv_quantizer.md R176). -/
  jitter_pos : 1 ≤ jitterRange := by decide
  /-- `FB_DEN >= 1` required (00_scope.md R8). -/
  fbDen_pos : 1 ≤ fbDen := by decide
  /-- P1, identity at zero (41_bit_reduction.md R111). -/
  stair_identity : ∀ i, stair 0#10 i = i := by exact stairDefault_identity
  /-- P2, monotonic staircase (41_bit_reduction.md R111). -/
  stair_monotone : ∀ c i j : Sample, i.toNat ≤ j.toNat → (stair c i).toNat ≤ (stair c j).toNat := by
    exact stairDefault_monotone
  /-- P3, the step width is non-decreasing in the crush amount (41_bit_reduction.md R111). -/
  stairWidth_monotone : ∀ c d : Sample, c.toNat ≤ d.toNat → stairWidth c ≤ stairWidth d := by
    exact stairWidthDefault_monotone
  /-- A step has a width of at least one entry. -/
  stairWidth_pos : ∀ c, 1 ≤ stairWidth c := by exact stairWidthDefault_pos
  /-- The steps of `STAIR(c, .)` are the blocks of `w(c)` entries: "every sample in a step maps to the step's starting
  (or offset) value" (41_bit_reduction.md, ETCH §4.2), and different steps to different values, so that no step is
  narrower or wider than `w(c)`. DEDUCED, log 2. -/
  stair_step : ∀ c i j : Sample, stair c i = stair c j ↔ i.toNat / stairWidth c = j.toNat / stairWidth c := by
    exact stairDefault_step
  /-- `SENTINEL` is "an out-of-domain marker": no value in [0,1023] (93_implementation_defined.md U12). -/
  sentinel_outside : 1023 < sentinel.toNat := by decide
  deriving Inhabited

/-- The values on the input ports `adc_audio`, `adc_cv`, `trig` and `rnd` at an overflow (60_exceptions.md R226).
"Every input is a draw in the model: the block constrains none of them." Log 9, 10. -/
structure Draws where
  adcAudio : Sample
  adcCv    : Sample
  trig     : Bool
  jit      : Vector Nat 12
  deriving DecidableEq, Repr, Inhabited

/-- What the agents and the outside may do next (00_scope.md R4, 60_exceptions.md R226). Log 4, 6, 8. -/
inductive Event where
  /-- OVF: one timer overflow, with the draws it may consume (40_tick_dispatcher.md R91). -/
  | ovf (d : Draws)
  /-- One edge of `clk_timer` (40_tick_dispatcher.md R90), with the draws at the pins should it overflow. -/
  | timerClock (d : Draws)
  /-- DONE, with the elapsed time in microseconds (40_tick_dispatcher.md R101). -/
  | done (us : Nat)
  /-- The host presents a word on the command port (47_host_interface.md R195). -/
  | present (w : CommandWord)
  /-- CMD: the handshake of the word that waits (47_host_interface.md R195). -/
  | cmd
  /-- READ of an address (20_memory.md R65). -/
  | read (a : BitVec 12)
  /-- REBUILD_STEP (41_bit_reduction.md R113). -/
  | rebuild
  /-- Reset is asserted (70_reset_and_hazards.md R235). -/
  | rst
  deriving DecidableEq, Repr, Inhabited

/-- The parameters of the implementation, open (00_scope.md R5). Log 1. -/
opaque Config.params : Params

/-- The free scheduler and the free environment: which step comes next, with which draws, where the state's queue
fixes none ("The scheduler is otherwise free", 00_scope.md R4). Applied to the counter `State.env.freeIdx`. Log 4. -/
opaque Config.freeEvent : Nat → Event

end Sys2Proof
end

