-- ==== Sys2Proof/Syntax.lean ====
section
/-! DEFINITION. Syntax.lean: the instructions, one constructor per row of spec/opcode_table.json. -/

namespace Sys2Proof

/-- The host commands (format C), the pseudo-commands (format P) and the tick engine's dispatch selectors
(format M) of spec/30_encoding.md R72, R75, R78. Operand widths are those of R72. -/
inductive Instr where
  | nop
  | setCrush (d : BitVec 10)
  | setGlide (d : BitVec 8)
  | setResonance (d : BitVec 8)
  | setRvbFeedback (d : BitVec 8)
  | setRvbWet (d : BitVec 8)
  | setRvbDelay (d : BitVec 11)
  | setLoopLength (d : BitVec 8)
  | setMorphRate (d : BitVec 4)
  | setRoot (d : BitVec 4)
  | setScale (d : BitVec 5)
  | setRate (rate : BitVec 10) (octdiv : BitVec 3)
  | setMode (mode : Mode) (gate : Bool)
  | reservedD
  | reservedE
  | reservedF
  | idle
  | loopOff
  | crushOff
  | dry
  | dispatchIdle
  | dispatchAudio
  | dispatchCvFree
  | dispatchCvGated
  | dispatchCalibrate
  deriving DecidableEq, Repr, Inhabited

end Sys2Proof
end

