-- ==== Sys2Proof/WellFormed.lean ====
section
/-! DEFINITION. WellFormed.lean: which instructions are in the spelling the decoder gives their word. -/

namespace Sys2Proof

/-- The operand widths are in the types of Instr and every operand value is legal (30_encoding.md R71), so the one
check left is the spelling: the word of each of the four commands below carries a pseudo-command's name
(30_encoding.md R78), and the decoder gives that word that name. The four terms still run (`exec` is total on
Instr). DESIGN CHOICE, log 13. -/
def Instr.wellFormed : Instr → Bool
  | .setMode m g => !(m == .idle && g == false)   -- the word of IDLE
  | .setLoopLength d => d != 0#8                   -- the word of LOOP_OFF
  | .setCrush d => d != 0#10                       -- the word of CRUSH_OFF
  | .setRvbWet d => d != 0#8                       -- the word of DRY
  | .nop => true
  | .setGlide _ => true
  | .setResonance _ => true
  | .setRvbFeedback _ => true
  | .setRvbDelay _ => true
  | .setMorphRate _ => true
  | .setRoot _ => true
  | .setScale _ => true
  | .setRate _ _ => true
  | .reservedD => true
  | .reservedE => true
  | .reservedF => true
  | .idle => true
  | .loopOff => true
  | .crushOff => true
  | .dry => true
  | .dispatchIdle => true
  | .dispatchAudio => true
  | .dispatchCvFree => true
  | .dispatchCvGated => true
  | .dispatchCalibrate => true

end Sys2Proof
end

