-- ==== Sys2Proof/Decode.lean ====
section
/-! DEFINITION. Decode.lean: words to instructions and back (spec/30_encoding.md R70 to R78). Log 13, 15, 23. -/

namespace Sys2Proof

/-- A word the block decodes: a command on the command port (30_encoding.md R70) or the tick engine's dispatch
selector `{gate_en, mode}` (30_encoding.md R75). -/
inductive Encoded where
  | command (w : CommandWord)
  | selector (v : Selector)
  deriving DecidableEq, Repr, Inhabited

/-- Why raw bits are no word of the block: the port is 20 bits wide and the selector 3. -/
inductive DecodeError where
  /-- A bit above 19 is set in the container of a command word. -/
  | commandTooWide
  /-- A bit above 2 is set in the container of a selector. -/
  | selectorTooWide
  /-- The container is empty or wider than three bytes: no format has that length (30_encoding.md R76). -/
  | noSuchLength
  deriving DecidableEq, Repr

/-- The pseudo-command that abbreviates an instruction, where there is one (30_encoding.md R78); otherwise the
instruction itself. -/
def Instr.abbreviate : Instr → Instr
  | .setMode .idle false => .idle
  | .setLoopLength d => if d = 0#8 then .loopOff else .setLoopLength d
  | .setCrush d => if d = 0#10 then .crushOff else .setCrush d
  | .setRvbWet d => if d = 0#8 then .dry else .setRvbWet d
  | i => i

/-- The real command a pseudo-command expands to (30_encoding.md R78); every other instruction is itself. -/
def Instr.expand : Instr → Instr
  | .idle => .setMode .idle false
  | .loopOff => .setLoopLength 0#8
  | .crushOff => .setCrush 0#10
  | .dry => .setRvbWet 0#8
  | i => i

/-- `mode` field, 2 bits (30_encoding.md R75). -/
def modeOfBits (b : BitVec 2) : Mode :=
  match b.toNat with
  | 0 => .idle
  | 1 => .audio
  | 2 => .cv
  | _ => .calibrate

/-- The encoding of a mode name (30_encoding.md R75). -/
def modeBits : Mode → BitVec 2
  | .idle => 0#2
  | .audio => 1#2
  | .cv => 2#2
  | .calibrate => 3#2

/-- `op = word[19:16]` (30_encoding.md R70). -/
def opField (w : CommandWord) : BitVec 4 := w.extractLsb' 16 4

/-- `data[n-1:0]`, the operand of a command: the low bits of `data` (30_encoding.md R71). -/
def dataField (n : Nat) (w : CommandWord) : BitVec n := w.extractLsb' 0 n

/-- How many low bits of `data` a command's operand takes, by opcode (30_encoding.md R72); the bits of `data` above
them are don't-care bits (R74). -/
def operandWidth (op : BitVec 4) : Nat :=
  match op.toNat with
  | 0x1 => 10
  | 0x2 => 8
  | 0x3 => 8
  | 0x4 => 8
  | 0x5 => 8
  | 0x6 => 11
  | 0x7 => 8
  | 0x8 => 4
  | 0x9 => 4
  | 0xA => 5
  | 0xB => 13
  | 0xC => 3
  | _ => 0

/-- The rows of format C: select on `op` alone (30_encoding.md R72, R73). -/
def decodeByOpcode (w : CommandWord) : Instr :=
  match (opField w).toNat with
  | 0x0 => .nop
  | 0x1 => .setCrush (dataField 10 w)
  | 0x2 => .setGlide (dataField 8 w)
  | 0x3 => .setResonance (dataField 8 w)
  | 0x4 => .setRvbFeedback (dataField 8 w)
  | 0x5 => .setRvbWet (dataField 8 w)
  | 0x6 => .setRvbDelay (dataField 11 w)
  | 0x7 => .setLoopLength (dataField 8 w)
  | 0x8 => .setMorphRate (dataField 4 w)
  | 0x9 => .setRoot (dataField 4 w)
  | 0xA => .setScale (dataField 5 w)
  | 0xB => .setRate (dataField 10 w) (w.extractLsb' 10 3)
  | 0xC => .setMode (modeOfBits (dataField 2 w)) (w.getLsbD 2)
  | 0xD => .reservedD
  | 0xE => .reservedE
  | _ => .reservedF

/-- A command word: the four full-word rows of format P first (30_encoding.md R78), then the rows of format C. -/
def decodeCommand (w : CommandWord) : Instr :=
  if w = 0xC0000#20 then .idle
  else if w = 0x70000#20 then .loopOff
  else if w = 0x10000#20 then .crushOff
  else if w = 0x50000#20 then .dry
  else decodeByOpcode w

/-- The dispatch selector `{gate_en, mode}` as the tick engine forms it (30_encoding.md R75). -/
def selectorOf (gate : Bool) (m : Mode) : Selector :=
  (BitVec.ofBool gate ++ modeBits m : BitVec (1 + 2))

/-- The rows of format M: `x00`, `x01`, `010`, `110`, `x11` (30_encoding.md R75). -/
def decodeSelector (v : Selector) : Instr :=
  match modeOfBits (v.extractLsb' 0 2), v.getLsbD 2 with
  | .idle, _ => .dispatchIdle
  | .audio, _ => .dispatchAudio
  | .cv, false => .dispatchCvFree
  | .cv, true => .dispatchCvGated
  | .calibrate, _ => .dispatchCalibrate

/-- The decoder, total on every word of the block. -/
def decode : Encoded → Instr
  | .command w => decodeCommand w
  | .selector v => decodeSelector v

/-- Raw bits in a container of whole bytes: one byte holds a selector, up to three hold a command word. Bits above
the port's width are refused by name. Log 23. -/
def Encoded.ofBits (nbits w : Nat) : Except DecodeError Encoded :=
  if nbits = 0 then .error .noSuchLength
  else if nbits ≤ 8 then
    if w < 2 ^ 3 then .ok (.selector (BitVec.ofNat 3 w)) else .error .selectorTooWide
  else if nbits ≤ 24 then
    if w < 2 ^ 20 then .ok (.command (BitVec.ofNat 20 w)) else .error .commandTooWide
  else .error .noSuchLength

/-- Decoding of raw bits, total, rejecting by name. -/
def decodeBits (nbits w : Nat) : Except DecodeError Instr :=
  (Encoded.ofBits nbits w).map decode

/-- The instruction the decoder reads from a table row's bits. -/
def decodeTableWord (nbits w : Nat) : Option Instr :=
  match decodeBits nbits w with
  | .ok i => some i
  | .error _ => none

/-- `{op, data}` (30_encoding.md R70). -/
def commandWord (op : BitVec 4) (data : BitVec 16) : CommandWord :=
  (op ++ data : BitVec (4 + 16))

/-- The encoder: don't-care bits are written 0 (30_encoding.md R74, R77). -/
def encode : Instr → Encoded
  | .nop => .command (commandWord 0x0#4 0#16)
  | .setCrush d => .command (commandWord 0x1#4 (d.zeroExtend 16))
  | .setGlide d => .command (commandWord 0x2#4 (d.zeroExtend 16))
  | .setResonance d => .command (commandWord 0x3#4 (d.zeroExtend 16))
  | .setRvbFeedback d => .command (commandWord 0x4#4 (d.zeroExtend 16))
  | .setRvbWet d => .command (commandWord 0x5#4 (d.zeroExtend 16))
  | .setRvbDelay d => .command (commandWord 0x6#4 (d.zeroExtend 16))
  | .setLoopLength d => .command (commandWord 0x7#4 (d.zeroExtend 16))
  | .setMorphRate d => .command (commandWord 0x8#4 (d.zeroExtend 16))
  | .setRoot d => .command (commandWord 0x9#4 (d.zeroExtend 16))
  | .setScale d => .command (commandWord 0xA#4 (d.zeroExtend 16))
  | .setRate rate octdiv =>
      .command (commandWord 0xB#4 ((octdiv ++ rate : BitVec (3 + 10)).zeroExtend 16))
  | .setMode m g => .command (commandWord 0xC#4 ((selectorOf g m).zeroExtend 16))
  | .reservedD => .command (commandWord 0xD#4 0#16)
  | .reservedE => .command (commandWord 0xE#4 0#16)
  | .reservedF => .command (commandWord 0xF#4 0#16)
  | .idle => .command 0xC0000#20
  | .loopOff => .command 0x70000#20
  | .crushOff => .command 0x10000#20
  | .dry => .command 0x50000#20
  | .dispatchIdle => .selector 0b000#3
  | .dispatchAudio => .selector 0b001#3
  | .dispatchCvFree => .selector 0b010#3
  | .dispatchCvGated => .selector 0b110#3
  | .dispatchCalibrate => .selector 0b011#3

end Sys2Proof
end

