-- ==== Sys2Proof/Machine/State.lean ====
section
/-! DEFINITION. State.lean: the state of Etch CORE, the four groups of spec/10_state.md R10 and the model's own
record of the outside, and its value after reset (spec/10_state.md R48). Plain data throughout. -/

namespace Sys2Proof.Machine

/-- One listed entry of a memory: its index and its 10-bit value. No memory of the block is byte-addressed
(20_memory.md R50), so an entry, not a byte, is the unit. Log 11. -/
abbrev Cell := Nat × Sample

/-- The control registers (10_state.md R14 to R25). -/
structure Control where
  /-- `mode` (R14). -/
  mode        : Mode
  /-- `gate_en` (R14). -/
  gateEn      : Bool
  /-- `crush` (R15). -/
  crush       : BitVec 10
  /-- `scale_crush` (R15). -/
  scaleCrush  : BitVec 10
  /-- `resonance` (R16). -/
  resonance   : BitVec 8
  /-- `alpha` (R17): loaded at reset, written by no command. -/
  alpha       : BitVec 8
  /-- `rvb_feedback` (R18). -/
  rvbFeedback : BitVec 8
  /-- `rvb_wet` (R18). -/
  rvbWet      : BitVec 8
  /-- `rvb_delay` (R19). -/
  rvbDelay    : BitVec 11
  /-- `loop_length` (R20). -/
  loopLength  : BitVec 8
  /-- `morph_rate` (R21). -/
  morphRate   : BitVec 4
  /-- `glide` (R22). -/
  glide       : BitVec 8
  /-- `note_offset` (R23). -/
  noteOffset  : BitVec 4
  /-- `scale_index` (R24). -/
  scaleIndex  : BitVec 5
  /-- `rate_ctl` (R25). -/
  rateCtl     : BitVec 10
  /-- `timer_period` (R25). -/
  timerPeriod : BitVec 16
  /-- `isr_period` (R25). -/
  isrPeriod   : BitVec 6
  deriving DecidableEq, Repr

/-- The sequencing registers (10_state.md R26 to R31). -/
structure Sequencing where
  /-- `timer_cnt` (R26). -/
  timerCnt    : BitVec 16
  /-- `busy` (R27). -/
  busy        : Bool
  /-- `oct_cnt` (R28). -/
  octCnt      : BitVec 6
  /-- `cv_div_cnt` (R29); its width is a parameter, so it is a natural number. Log 21. -/
  cvDivCnt    : Nat
  /-- `trig_prev` (R30). -/
  trigPrev    : Bool
  /-- `paused` (R30). -/
  paused      : Bool
  /-- `frame_period` (R31). -/
  framePeriod : BitVec 16
  deriving DecidableEq, Repr

/-- `fstate[0..4]` (10_state.md R32): the feedback stage's output and the four poles. -/
structure FilterState where
  f0 : Sample
  f1 : Sample
  f2 : Sample
  f3 : Sample
  f4 : Sample
  deriving DecidableEq, Repr

/-- The engine data registers (10_state.md R32 to R40). -/
structure Engine where
  /-- `fstate` (R32). -/
  fstate       : FilterState
  /-- `rvb_read` (R33). -/
  rvbRead      : BitVec 11
  /-- `rvb_write` (R33). -/
  rvbWrite     : BitVec 11
  /-- `loop_pointer` (R34). -/
  loopPointer  : BitVec 8
  /-- `morph_counter` (R35). -/
  morphCounter : BitVec 16
  /-- `glide_rolling` (R36). -/
  glideRolling : BitVec 16
  /-- `cal_avg` (R37). -/
  calAvg       : BitVec 16
  /-- `prob_map` (R38). -/
  probMap      : BitVec 12
  /-- `dac_out` (R39), the output port. -/
  dacOut       : Sample
  /-- `rebuild_idx` (R40). -/
  rebuildIdx   : BitVec 11
  deriving DecidableEq, Repr

/-- The memories the block writes (10_state.md R41 to R43). -/
inductive Ram where
  | inbuf
  | outbuf
  | morphbuf
  | rvb
  | bittab
  deriving DecidableEq, Repr, Inhabited

/-- The contents of the memories: the entries that differ from what an unlisted index reads as. -/
structure Memory where
  inbuf    : List Cell
  outbuf   : List Cell
  morphbuf : List Cell
  rvb      : List Cell
  bittab   : List Cell
  deriving DecidableEq, Repr

/-- The model's own record of the outside of the block; no part of the architectural state of 10_state.md R10. -/
structure Env where
  /-- Events the environment has already fixed, oldest first. Log 4. -/
  queue   : List Event
  /-- The counter `Config.freeEvent` is applied to when the queue is empty. Log 4. -/
  freeIdx : Nat
  /-- The input pins as they stood at the latest overflow. Log 9. -/
  pins    : Draws
  /-- `cmd_valid`, `cmd_word`: the command word that waits on the port (47_host_interface.md R195). Log 6. -/
  cmdWord : Option CommandWord
  /-- `rd_data`: the value the latest READ returned (20_memory.md R65). Log 7. -/
  rdData  : BitVec 16
  deriving DecidableEq, Repr

/-- The state of the machine. -/
structure State where
  ctl : Control
  seq : Sequencing
  eng : Engine
  mem : Memory
  env : Env
  deriving DecidableEq, Repr

/-- The block raises no fault: "A model's step function for this block never returns a fault" (60_exceptions.md
R215). No constructor, so none can be raised. Log 20. -/
inductive Fault where
  deriving DecidableEq, Repr

/-- Why an instruction has no meaning. -/
inductive Refusal where
  /-- Raised only by an arm of `exec` whose instruction has no meaning yet (none is left). Safe: the machine stops. -/
  | notModelled (mnemonic : String)
  deriving DecidableEq, Repr

/-- `alpha = 255 * CUTOFF div (128 + CUTOFF)` (42_filter_chain.md R121). -/
def resetAlpha (P : Params) : BitVec 8 := BitVec.ofNat 8 (255 * P.cutoff / (128 + P.cutoff))

/-- All five filter registers at the center value (42_filter_chain.md R126). -/
def FilterState.centered : FilterState :=
  { f0 := center, f1 := center, f2 := center, f3 := center, f4 := center }

/-- The control registers after reset (10_state.md R48). -/
def Control.reset (P : Params) : Control where
  mode := .idle
  gateEn := false
  crush := 0
  scaleCrush := 0
  resonance := 0
  alpha := resetAlpha P
  rvbFeedback := 0
  rvbWet := 0
  rvbDelay := 0
  loopLength := 0
  morphRate := 0
  glide := 0
  noteOffset := 0
  scaleIndex := 0
  rateCtl := 0
  timerPeriod := P.periodTable 0
  isrPeriod := 1

/-- The sequencing registers after reset (10_state.md R48). -/
def Sequencing.reset (P : Params) : Sequencing where
  timerCnt := 0
  busy := false
  octCnt := 1
  cvDivCnt := P.cvDiv
  trigPrev := false
  paused := true
  framePeriod := 0

/-- The engine data registers after reset (10_state.md R48). -/
def Engine.reset (P : Params) : Engine where
  fstate := FilterState.centered
  rvbRead := 0
  rvbWrite := 0
  loopPointer := 0
  morphCounter := 1
  glideRolling := P.sentinel
  calAvg := P.sentinel
  probMap := 0
  dacOut := center
  rebuildIdx := rebuildIdle

/-- After reset no memory lists an entry: BITTAB reads as the identity and the sample memories as the open
parameters `INIT_*` (10_state.md R48). Log 12. -/
def Memory.reset : Memory where
  inbuf := []
  outbuf := []
  morphbuf := []
  rvb := []
  bittab := []

/-- The pins before the first overflow. DESIGN CHOICE, log 9. -/
def Draws.reset : Draws where
  adcAudio := 0
  adcCv := 0
  trig := false
  jit := Vector.replicate 12 0

/-- The outside of the block after reset: nothing scheduled and no command waiting (70_reset_and_hazards.md R235);
the other values are the model's (log 4, 7, 9). -/
def Env.reset : Env where
  queue := []
  freeIdx := 0
  pins := Draws.reset
  cmdWord := none
  rdData := 0

/-- The machine after reset, for given parameters. -/
def State.resetWith (P : Params) : State where
  ctl := Control.reset P
  seq := Sequencing.reset P
  eng := Engine.reset P
  mem := Memory.reset
  env := Env.reset

/-- The machine right after reset (10_state.md R48, 70_reset_and_hazards.md R235). -/
def State.reset : State := State.resetWith Config.params

end Sys2Proof.Machine
end

