-- ==== Sys2Proof/Machine/Ops.lean ====
section
/-! DEFINITION. Ops.lean: the primitives of spec/00_scope.md R9 over memories and ports, the acceptance of an overflow
("trap entry", spec/60_exceptions.md R221) and DONE ("trap return", R222). -/

namespace Sys2Proof.Machine

/-! ## Memories -/

/-- Number of entries of a memory (10_state.md R41 to R43). -/
def capacity : Ram → Nat
  | .inbuf => bufCap
  | .outbuf => bufCap
  | .morphbuf => bufCap
  | .rvb => rvbCap
  | .bittab => bittabLen

/-- What an unlisted index reads as: the reset contents (10_state.md R41 to R43, R48). Log 11, 12. -/
def unlisted (P : Params) : Ram → Nat → Sample
  | .inbuf => P.initInbuf
  | .outbuf => P.initOutbuf
  | .morphbuf => P.initMorphbuf
  | .rvb => P.initRvb
  | .bittab => fun i => BitVec.ofNat 10 i

/-- The listed entries of one memory. -/
def cells (m : Memory) : Ram → List Cell
  | .inbuf => m.inbuf
  | .outbuf => m.outbuf
  | .morphbuf => m.morphbuf
  | .rvb => m.rvb
  | .bittab => m.bittab

/-- Replace the listed entries of one memory. -/
def setCells (m : Memory) (M : Ram) (l : List Cell) : Memory :=
  match M with
  | .inbuf => { m with inbuf := l }
  | .outbuf => { m with outbuf := l }
  | .morphbuf => { m with morphbuf := l }
  | .rvb => { m with rvb := l }
  | .bittab => { m with bittab := l }

/-- The entry at index `i` of a list of entries; `dflt` is what an unlisted index reads as. -/
def readCells (dflt : Nat → Sample) : List Cell → Nat → Sample
  | [], i => dflt i
  | (j, v) :: l, i => if j = i then v else readCells dflt l i

/-- Write `v` at index `i`, keeping the canonical form: writing what an unlisted index reads as removes the entry. -/
def writeCells (dflt : Nat → Sample) : List Cell → Nat → Sample → List Cell
  | [], i, v => if v = dflt i then [] else [(i, v)]
  | (j, u) :: l, i, v =>
    if i < j then (if v = dflt i then (j, u) :: l else (i, v) :: (j, u) :: l)
    else if i = j then (if v = dflt i then l else (i, v) :: l)
    else (j, u) :: writeCells dflt l i v

/-- Canonical form above a bound: indices at least `lo` and strictly rising, below `cap`, and no entry equal to what
its index reads as when unlisted. -/
def cellsWf (dflt : Nat → Sample) (cap : Nat) : Nat → List Cell → Bool
  | _, [] => true
  | lo, (i, v) :: l => decide (lo ≤ i) && decide (i < cap) && decide (v ≠ dflt i) && cellsWf dflt cap (i + 1) l

/-- The canonical form of one memory. -/
def ramWf (P : Params) (M : Ram) (m : Memory) : Bool := cellsWf (unlisted P M) (capacity M) 0 (cells m M)

/-- The canonical form of all memories. -/
def Memory.wf (P : Params) (m : Memory) : Bool :=
  ramWf P .inbuf m && ramWf P .outbuf m && ramWf P .morphbuf m && ramWf P .rvb m && ramWf P .bittab m

/-- `MemRead(M, i)` (00_scope.md R9). -/
def memRead (P : Params) (M : Ram) (i : Nat) (s : State) : Sample :=
  readCells (unlisted P M) (cells s.mem M) i

/-- `MemWrite(M, i, v)` (00_scope.md R9). -/
def memWrite (P : Params) (M : Ram) (i : Nat) (v : Sample) (s : State) : State :=
  { s with mem := setCells s.mem M (writeCells (unlisted P M) (cells s.mem M) i v) }

/-! ## Ports -/

/-- The two analog inputs (00_scope.md R9). -/
inductive AdcPin where
  | audio
  | cv
  deriving DecidableEq, Repr

/-- `AdcRead(pin)`: the value on the pin at this overflow; it changes no state (20_memory.md R64). -/
def adcRead : AdcPin → State → Sample
  | .audio, s => s.env.pins.adcAudio
  | .cv, s => s.env.pins.adcCv

/-- `TrigRead()` (00_scope.md R9). -/
def trigRead (s : State) : Bool := s.env.pins.trig

/-- The jitter draw `j[i]`, any value in [0, JITTER_RANGE - 1] (45_cv_quantizer.md R176). Log 10. -/
def jitterDraw (P : Params) (i : Fin 12) (s : State) : Nat := s.env.pins.jit[i] % P.jitterRange

/-- Drive the output register (10_state.md R39). -/
def setDac (y : Sample) (s : State) : State := { s with eng := { s.eng with dacOut := y } }

/-! ## Entry and return (60_exceptions.md R221, R222) -/

/-- Acceptance of an overflow: `busy <- 1`; nothing is saved (40_tick_dispatcher.md R94, 60_exceptions.md R221). -/
def acceptOverflow (s : State) : State := { s with seq := { s.seq with busy := true } }

/-- DONE: `frame_period <- e; busy <- 0`, `e` saturated at 65535 (40_tick_dispatcher.md R101, 60_exceptions.md R216,
R222). -/
def finishTick (us : Nat) (s : State) : State :=
  { s with seq := { s.seq with framePeriod := BitVec.ofNat 16 (min us 65535), busy := false } }

end Sys2Proof.Machine
end

