-- ==== Sys2Proof/Machine/Operands.lean ====
section
/-! DEFINITION. Operands.lean: what a command stores for an operand its register cannot hold (spec/30_encoding.md R71,
R80). The operand fields themselves are taken in Sys2Proof/Decode.lean. -/

namespace Sys2Proof.Machine

/-- SET_ROOT stores `min(d, 12)` (30_encoding.md R80). -/
def rootOperand (d : BitVec 4) : BitVec 4 := BitVec.ofNat 4 (min d.toNat 12)

/-- SET_SCALE stores `min(d, 21)`, the last row of the Scale Weight Table at most (30_encoding.md R80). -/
def scaleOperand (d : BitVec 5) : BitVec 5 := BitVec.ofNat 5 (min d.toNat (nScales - 1))

/-- `isr_period = 2^min(octdiv, 5)` (30_encoding.md R71, R80). -/
def octaveDivisor (octdiv : BitVec 3) : BitVec 6 := BitVec.ofNat 6 (2 ^ min octdiv.toNat 5)

/-- The reload value `2^d` of the morph counter (44_loop_morph.md R160). -/
def morphReload (rate : BitVec 4) : BitVec 16 := BitVec.ofNat 16 (2 ^ rate.toNat)

end Sys2Proof.Machine
end

