-- ==== Sys2Proof/Machine/Flags.lean ====
section
/-! DEFINITION. Flags.lean: the one-bit computations of spec/10_state.md R13 and the ready outputs of
spec/60_exceptions.md R226. -/

namespace Sys2Proof.Machine

/-- A rising edge of the trigger: high now, low at the last poll (40_tick_dispatcher.md R92). -/
def risingEdge (prev now : Bool) : Bool := now && !prev

/-- `poll_trigger()` (40_tick_dispatcher.md R92). -/
def pollTrigger (s : State) : State :=
  { s with seq := { s.seq with
      paused := if risingEdge s.seq.trigPrev (trigRead s) then false else s.seq.paused
      trigPrev := trigRead s } }

/-- The gated CV mode, the one mode in which the trigger is polled (40_tick_dispatcher.md R92). -/
def gatedCv (s : State) : Bool := s.ctl.mode == .cv && s.ctl.gateEn

/-- `map[i]`: is `SCALE_W + jitter - half_jitter > 1023 - scale_crush`, compared in Z (45_cv_quantizer.md R177). -/
def permitted (weight : Sample) (jitter jitterRange : Nat) (scaleCrush : BitVec 10) : Bool :=
  decide ((weight.toNat : Int) + jitter - (jitterRange / 2 : Nat) > 1023 - (scaleCrush.toNat : Int))

/-- `cmd_ready`: `busy = 0` and `rebuild_idx = 1024` (47_host_interface.md R195). -/
def cmdReady (s : State) : Bool := !s.seq.busy && s.eng.rebuildIdx == rebuildIdle

/-- `rd_ready`: `busy = 0` (60_exceptions.md R226). -/
def rdReady (s : State) : Bool := !s.seq.busy

/-- REBUILD_STEP is enabled: `busy = 0` and `rebuild_idx < 1024` (20_memory.md R58). -/
def rebuildEnabled (s : State) : Bool := !s.seq.busy && decide (s.eng.rebuildIdx < rebuildIdle)

end Sys2Proof.Machine
end

