-- ==== Sys2Proof/Machine/BitReduction.lean ====
section
/-! DEFINITION. BitReduction.lean: the bit-reduction table, its builder and its lookup (spec/41_bit_reduction.md). -/

namespace Sys2Proof.Machine

/-- The lookup `MemRead(BITTAB, v)` (R110). -/
def bitReduce (P : Params) (v : Sample) (s : State) : Sample := memRead P .bittab v.toNat s

/-- SET_CRUSH (R112): both controls take the value and a rebuild starts. -/
def startRebuild (d : BitVec 10) (s : State) : State :=
  { s with
      ctl := { s.ctl with crush := d, scaleCrush := d }
      eng := { s.eng with rebuildIdx := 0 } }

/-- REBUILD_STEP (R113): one entry, in ascending order. -/
def rebuildStep (P : Params) (s : State) : State :=
  let i := s.eng.rebuildIdx
  let s := memWrite P .bittab i.toNat (P.stair s.ctl.crush (BitVec.ofNat 10 i.toNat)) s
  { s with eng := { s.eng with rebuildIdx := i + 1 } }

/-- SET_CRUSH `d` (R112). -/
def execSetCrush (d : BitVec 10) (s : State) : Host.Outcome State Fault Refusal := .next (startRebuild d s)

/-- CRUSH_OFF, the pseudo-command of `SET_CRUSH 0` (30_encoding.md R78). -/
def execCrushOff (s : State) : Host.Outcome State Fault Refusal := .next (startRebuild 0 s)

end Sys2Proof.Machine
end

