-- ==== Sys2Proof/Machine/Filter.lean ====
section
/-! DEFINITION. Filter.lean: the weighted average and the filter chain (spec/42_filter_chain.md). -/

namespace Sys2Proof.Machine

/-- `tween(v1, v2, w)` on naturals, with the sign split (R120). -/
def tween (v1 v2 w : Nat) : Nat :=
  if v1 ≤ v2 then v1 + (v2 - v1) * w / 256 else v1 - (v1 - v2) * w / 256

/-- `tween` of two samples by an 8-bit weight; the result is a sample (R127(a)). -/
def blend (v1 v2 : Sample) (w : BitVec 8) : Sample := BitVec.ofNat 10 (tween v1.toNat v2.toNat w.toNat)

/-- `clamp(lo, hi, v)` in Z (00_scope.md R9). -/
def clamp (lo hi v : Int) : Int := max lo (min hi v)

/-- The inverted, scaled copy of the fourth pole's output, in Z (R123). -/
def invertedCopy (P : Params) (s4 : Sample) : Int :=
  if s4.toNat ≤ 512 then (((512 - s4.toNat) * P.fbNum / P.fbDen : Nat) : Int)
  else -(((s4.toNat - 512) * P.fbNum / P.fbDen : Nat) : Int)

/-- The combination clamped into the window `[FB_LO, FB_HI]` (R123). -/
def feedbackCombination (P : Params) (q s4 : Sample) : Sample :=
  BitVec.ofNat 10 (clamp P.fbLo.toNat P.fbHi.toNat (q.toNat + invertedCopy P s4)).toNat

/-- `fstate` after `filter(q)`: the feedback stage, then poles 1 to 4, each reading its updated predecessor
(R123, R124, R125). -/
def filterStages (P : Params) (q : Sample) (resonance alpha : BitVec 8) (f : FilterState) : FilterState :=
  let f0 := blend q (feedbackCombination P q f.f4) resonance
  let f1 := blend f.f1 f0 alpha
  let f2 := blend f.f2 f1 alpha
  let f3 := blend f.f3 f2 alpha
  let f4 := blend f.f4 f3 alpha
  { f0 := f0, f1 := f1, f2 := f2, f3 := f3, f4 := f4 }

/-- `filter(q)`: run the stages and return `fstate[4]` (R125). -/
def filter (P : Params) (q : Sample) (s : State) : Sample × State :=
  let f := filterStages P q s.ctl.resonance s.ctl.alpha s.eng.fstate
  (f.f4, { s with eng := { s.eng with fstate := f } })

/-- SET_RESONANCE `d` (R122). -/
def execSetResonance (d : BitVec 8) (s : State) : Host.Outcome State Fault Refusal :=
  .next { s with ctl := { s.ctl with resonance := d } }

end Sys2Proof.Machine
end

