-- ==== Sys2Proof/Machine/Reverb.lean ====
section
/-! DEFINITION. Reverb.lean: the reverb line (spec/43_reverb.md). -/

namespace Sys2Proof.Machine

/-- `recenter(r) = clamp(0, 1023, r)`, the identity on 10-bit entries (R136). -/
def recenter (r : Sample) : Sample := BitVec.ofNat 10 (clamp 0 1023 r.toNat).toNat

/-- Both cursors advance by 1 modulo 2048 (R137). -/
def advanceCursors (s : State) : State :=
  { s with eng := { s.eng with rvbRead := s.eng.rvbRead + 1, rvbWrite := s.eng.rvbWrite + 1 } }

/-- `reverb(f)` (R135): read, write, mix, advance. -/
def reverb (P : Params) (f : Sample) (s : State) : Sample × State :=
  let r := recenter (memRead P .rvb s.eng.rvbRead.toNat s)
  let s := memWrite P .rvb s.eng.rvbWrite.toNat (blend f r s.ctl.rvbFeedback) s
  (blend f r s.ctl.rvbWet, advanceCursors s)

/-- `(rvb_write + 2048 - d) mod 2048` (20_memory.md R63). -/
def delayedCursor (write d : BitVec 11) : BitVec 11 := BitVec.ofNat 11 ((write.toNat + 2048 - d.toNat) % 2048)

/-- SET_RVB_FEEDBACK `d` (R138). -/
def execSetRvbFeedback (d : BitVec 8) (s : State) : Host.Outcome State Fault Refusal :=
  .next { s with ctl := { s.ctl with rvbFeedback := d } }

/-- The write of SET_RVB_WET (R139). -/
def setWet (d : BitVec 8) (s : State) : State := { s with ctl := { s.ctl with rvbWet := d } }

/-- SET_RVB_WET `d` (R139). -/
def execSetRvbWet (d : BitVec 8) (s : State) : Host.Outcome State Fault Refusal := .next (setWet d s)

/-- DRY, the pseudo-command of `SET_RVB_WET 0` (30_encoding.md R78). -/
def execDry (s : State) : Host.Outcome State Fault Refusal := .next (setWet 0 s)

/-- SET_RVB_DELAY `d` (R140): the delay and the derived read cursor in one step. -/
def execSetRvbDelay (d : BitVec 11) (s : State) : Host.Outcome State Fault Refusal :=
  .next { s with
      ctl := { s.ctl with rvbDelay := d }
      eng := { s.eng with rvbRead := delayedCursor s.eng.rvbWrite d } }

end Sys2Proof.Machine
end

