-- ==== Sys2Proof/Machine/LoopMorph.lean ====
section
/-! DEFINITION. LoopMorph.lean: the audio path and the loop and morph engine (spec/44_loop_morph.md). -/

namespace Sys2Proof.Machine

/-- `chain(v)`: bit reduction, Filter Chain, Reverb Line (R150). -/
def chain (P : Params) (v : Sample) (s : State) : Sample × State :=
  let (f, s) := filter P (bitReduce P v s) s
  reverb P f s

/-- `ease_index(c, r)` (R152). -/
def easeIndex (c r : Nat) : Nat := if 8 ≤ r then c / 2 ^ (r - 8) else c * 2 ^ (8 - r)

/-- `p1` of `advance_ptr()`: 8-bit increment, wrapping at the loop length when a loop is enabled (R156). -/
def nextPointer (loopLength p : BitVec 8) : BitVec 8 :=
  if loopLength ≠ 0 ∧ loopLength ≤ p + 1 then 0 else p + 1

/-- `advance_ptr()` (R156). -/
def advancePtr (s : State) : State :=
  { s with eng := { s.eng with loopPointer := nextPointer s.ctl.loopLength s.eng.loopPointer } }

/-- `step_morph_counter()` (R157). -/
def stepMorphCounter (s : State) : State :=
  { s with eng := { s.eng with morphCounter :=
      if s.eng.morphCounter = 0 then morphReload s.ctl.morphRate else s.eng.morphCounter - 1 } }

/-- `morph_step(pin, p)` (R155): the copy reads `INBUF[p]` before the overwrite; a read when the counter is not 0 is
discarded. -/
def morphStep (P : Params) (pin : AdcPin) (p : Nat) (s : State) : State :=
  let x := adcRead pin s
  if s.eng.morphCounter = 0 then
    let s := memWrite P .morphbuf p (memRead P .inbuf p s) s
    memWrite P .inbuf p x s
  else s

/-- The blended value of loop position `p` (R152, R153). -/
def loopBlend (P : Params) (p : Nat) (s : State) : Sample :=
  blend (memRead P .inbuf p s) (memRead P .morphbuf p s)
    (P.ease (easeIndex s.eng.morphCounter.toNat s.ctl.morphRate.toNat))

/-- The pointer advance that ends a loop tick, with the morph counter's step on wraparound to 0 (R154, R157). -/
def finishLoop (s : State) : State :=
  let s := advancePtr s
  if s.eng.loopPointer = 0 then stepMorphCounter s else s

/-- `loop_tick(pin, post)` (R154). -/
def loopTick (P : Params) (pin : AdcPin) (post : Sample → State → Sample × State) (s : State) : State :=
  let p := s.eng.loopPointer.toNat
  let (y, s) := post (loopBlend P p s) s
  let s := setDac y (memWrite P .outbuf p y s)
  finishLoop (morphStep P pin p s)

/-- The non-loop path of Audio and CV mode: input write, post-processing, output write, pointer advance
(R151, 45_cv_quantizer.md R171). -/
def nonLoopTick (P : Params) (pin : AdcPin) (post : Sample → State → Sample × State) (s : State) : State :=
  let p := s.eng.loopPointer.toNat
  let x := adcRead pin s
  let s := memWrite P .inbuf p x s
  let (y, s) := post x s
  advancePtr (setDac y (memWrite P .outbuf p y s))

/-- `audio_tick()` (R162). -/
def audioTick (P : Params) (s : State) : State :=
  if s.ctl.loopLength = 0 then nonLoopTick P .audio (chain P) s else loopTick P .audio (chain P) s

/-- SET_LOOP_LENGTH's effect (R159). -/
def setLoopLength (d : BitVec 8) (s : State) : State :=
  { s with
      ctl := { s.ctl with loopLength := d }
      eng := { s.eng with loopPointer := if d ≠ 0 ∧ d ≤ s.eng.loopPointer then 0 else s.eng.loopPointer } }

/-- SET_LOOP_LENGTH `d` (R159). -/
def execSetLoopLength (d : BitVec 8) (s : State) : Host.Outcome State Fault Refusal := .next (setLoopLength d s)

/-- LOOP_OFF, the pseudo-command of `SET_LOOP_LENGTH 0` (30_encoding.md R78). -/
def execLoopOff (s : State) : Host.Outcome State Fault Refusal := .next (setLoopLength 0 s)

/-- SET_MORPH_RATE `d` (R160): the counter restarts at `2^d`. -/
def execSetMorphRate (d : BitVec 4) (s : State) : Host.Outcome State Fault Refusal :=
  .next { s with
      ctl := { s.ctl with morphRate := d }
      eng := { s.eng with morphCounter := morphReload d } }

end Sys2Proof.Machine
end

