-- ==== Sys2Proof/Machine/Quantizer.lean ====
section
/-! DEFINITION. Quantizer.lean: the CV quantizer (spec/45_cv_quantizer.md). -/

namespace Sys2Proof.Machine

/-- The value `glide_step(v)` leaves in `glide_rolling` (R172). -/
def glideValue (P : Params) (rolling : BitVec 16) (glide : BitVec 8) (v : Sample) : BitVec 16 :=
  if rolling = P.sentinel then v.zeroExtend 16
  else BitVec.ofNat 16 ((rolling.toNat * glide.toNat + v.toNat * 16) / (glide.toNat + 16))

/-- `glide_step(v)` (R172). -/
def glideStep (P : Params) (v : Sample) (s : State) : State :=
  { s with eng := { s.eng with glideRolling := glideValue P s.eng.glideRolling s.ctl.glide v } }

/-- `map[i]` of this run (R177). -/
def mapBit (P : Params) (s : State) (i : Fin 12) : Bool :=
  permitted (P.scaleW s.ctl.scaleIndex.toNat i) (jitterDraw P i s) P.jitterRange s.ctl.scaleCrush

/-- The twelve bits of the probability map, bit `i` for semitone `i` (R177). -/
def probMap (P : Params) (s : State) : BitVec 12 := BitVec.ofFnLE (mapBit P s)

/-- `build_prob_map()` (R177). -/
def buildProbMap (P : Params) (s : State) : State :=
  { s with eng := { s.eng with probMap := probMap P s } }

/-- `walk_down(semi)`: downward while the map entry is 0 and the index is above 0 (R178). -/
def walkDown (map : BitVec 12) : Nat → Nat
  | 0 => 0
  | n + 1 => if map.getLsbD (n + 1) then n + 1 else walkDown map n

/-- `note = (g * 120) div 1024` (R173). -/
def noteOf (g : Nat) : Nat := g * 120 / 1024

/-- Recombination and clamp: `n = min(120, oct * 12 + semi + note_offset)` (R179). -/
def recombine (oct semi offset : Nat) : Nat := min 120 (oct * 12 + semi + offset)

/-- `min(1023, (n * 1024) div 120)` (R179). -/
def noteValue (n : Nat) : Sample := BitVec.ofNat 10 (min 1023 (n * 1024 / 120))

/-- `quantize(v)` (R182). -/
def quantize (P : Params) (v : Sample) (s : State) : Sample × State :=
  let s := glideStep P v s
  let note := noteOf s.eng.glideRolling.toNat
  let s := buildProbMap P s
  let semi := walkDown s.eng.probMap (note % 12)
  (noteValue (recombine (note / 12) semi s.ctl.noteOffset.toNat), s)

/-- `cv_tick()` (R170): the non-loop path (R171) or the loop path (R181). -/
def cvTick (P : Params) (s : State) : State :=
  if s.ctl.loopLength = 0 then nonLoopTick P .cv (quantize P) s else loopTick P .cv (quantize P) s

/-- SET_GLIDE `d` (R174). -/
def execSetGlide (d : BitVec 8) (s : State) : Host.Outcome State Fault Refusal :=
  .next { s with ctl := { s.ctl with glide := d } }

/-- SET_ROOT `d` (R175). -/
def execSetRoot (d : BitVec 4) (s : State) : Host.Outcome State Fault Refusal :=
  .next { s with ctl := { s.ctl with noteOffset := rootOperand d } }

/-- SET_SCALE `d` (R180). -/
def execSetScale (d : BitVec 5) (s : State) : Host.Outcome State Fault Refusal :=
  .next { s with ctl := { s.ctl with scaleIndex := scaleOperand d } }

end Sys2Proof.Machine
end

