-- ==== Sys2Proof/Machine/Calibrate.lean ====
section
/-! DEFINITION. Calibrate.lean: calibration mode (spec/46_calibrate.md). -/

namespace Sys2Proof.Machine

/-- The value `cal_average(raw)` leaves in `cal_avg` (R191). -/
def calValue (P : Params) (avg : BitVec 16) (raw : Sample) : BitVec 16 :=
  if avg = P.sentinel then raw.zeroExtend 16 else BitVec.ofNat 16 ((avg.toNat + raw.toNat) / 2)

/-- `cal_average(raw)` (R191). -/
def calAverage (P : Params) (raw : Sample) (s : State) : State :=
  { s with eng := { s.eng with calAvg := calValue P s.eng.calAvg raw } }

/-- `cal_tick()` (R190, R192). -/
def calTick (P : Params) (s : State) : State :=
  let p := s.eng.loopPointer.toNat
  let raw := adcRead .cv s
  let s := memWrite P .outbuf p raw (memWrite P .inbuf p raw s)
  advancePtr (setDac fullScale (calAverage P raw s))

end Sys2Proof.Machine
end

