-- ==== Sys2Proof/Machine/HostPort.lean ====
section
/-! DEFINITION. HostPort.lean: SET_MODE, SET_RATE, NOP and the reserved opcodes (spec/47_host_interface.md), and the
read map (spec/20_memory.md R54, R65). -/

namespace Sys2Proof.Machine

/-- NOP (R198): changes no state. -/
def execNop (s : State) : Host.Outcome State Fault Refusal := .next s

/-- Opcode 0xD: accepted, changes no state (R199). Log 14. -/
def execReservedD (s : State) : Host.Outcome State Fault Refusal := .next s

/-- Opcode 0xE: accepted, changes no state (R199). Log 14. -/
def execReservedE (s : State) : Host.Outcome State Fault Refusal := .next s

/-- Opcode 0xF: accepted, changes no state (R199). Log 14. -/
def execReservedF (s : State) : Host.Outcome State Fault Refusal := .next s

/-- SET_MODE's effect (R196): the mode, the gate, `paused <- 1`, and the filter reset when the mode is Idle
(42_filter_chain.md R126). -/
def setMode (m : Mode) (gate : Bool) (s : State) : State :=
  { s with
      ctl := { s.ctl with mode := m, gateEn := gate }
      seq := { s.seq with paused := true }
      eng := { s.eng with fstate := if m = .idle then FilterState.centered else s.eng.fstate } }

/-- SET_MODE `mode, gate` (R196). -/
def execSetMode (m : Mode) (gate : Bool) (s : State) : Host.Outcome State Fault Refusal := .next (setMode m gate s)

/-- IDLE, the pseudo-command of `SET_MODE IDLE` (30_encoding.md R78). -/
def execIdle (s : State) : Host.Outcome State Fault Refusal := .next (setMode .idle false s)

/-- SET_RATE `rate, octdiv` (R197). -/
def setRate (P : Params) (rate : BitVec 10) (octdiv : BitVec 3) (s : State) : State :=
  { s with
      ctl := { s.ctl with
        rateCtl := rate
        timerPeriod := P.periodTable rate.toNat
        isrPeriod := octaveDivisor octdiv }
      seq := { s.seq with octCnt := octaveDivisor octdiv, timerCnt := 0 } }

/-- SET_RATE `rate, octdiv` (R197). -/
def execSetRate (rate : BitVec 10) (octdiv : BitVec 3) (s : State) : Host.Outcome State Fault Refusal :=
  .next (setRate Config.params rate octdiv s)

/-- The host read map: the value a READ of address `a` returns (20_memory.md R54, R55). -/
def readMap (P : Params) (a : BitVec 12) (s : State) : BitVec 16 :=
  let n := a.toNat
  if n < 0x100 then (memRead P .inbuf n s).zeroExtend 16
  else if n < 0x200 then (memRead P .outbuf (n - 0x100) s).zeroExtend 16
  else if n < 0x300 then (memRead P .morphbuf (n - 0x200) s).zeroExtend 16
  else if n < 0x30C then (BitVec.ofBool (s.eng.probMap.getLsbD (n - 0x300))).zeroExtend 16
  else if n = 0x310 then s.eng.loopPointer.zeroExtend 16
  else if n = 0x311 then s.seq.framePeriod
  else if n = 0x312 then s.eng.calAvg
  else 0

/-- READ of address `a`: the port returns the value, nothing else changes (20_memory.md R65). -/
def readPort (P : Params) (a : BitVec 12) (s : State) : State :=
  { s with env := { s.env with rdData := readMap P a s } }

end Sys2Proof.Machine
end

