-- ==== Sys2Proof/Machine/Tick.lean ====
section
/-! DEFINITION. Tick.lean: the sample clock, the head of the OVF step and the five dispatch selectors
(spec/40_tick_dispatcher.md). -/

namespace Sys2Proof.Machine

/-- `idle_tick()` (R97). -/
def idleTick (s : State) : State := setDac center s

/-- `cv_dispatch()` (R99): the coarse divider, the gate, the engine, the re-pause. `gated` is `gate_en`, which the
selector carries. -/
def cvDispatch (P : Params) (gated : Bool) (s : State) : State :=
  let n := s.seq.cvDivCnt - 1
  if n ≠ 0 then { s with seq := { s.seq with cvDivCnt := n } }
  else
    let s := { s with seq := { s.seq with cvDivCnt := P.cvDiv } }
    if gated && s.seq.paused then s
    else
      let s := cvTick P s
      if gated then { s with seq := { s.seq with paused := true } } else s

/-- DISPATCH_IDLE (R97). -/
def execDispatchIdle (s : State) : Host.Outcome State Fault Refusal := .next (idleTick s)

/-- DISPATCH_AUDIO (R98). -/
def execDispatchAudio (s : State) : Host.Outcome State Fault Refusal := .next (audioTick Config.params s)

/-- DISPATCH_CV_FREE (R99 with `gate_en = 0`). -/
def execDispatchCvFree (s : State) : Host.Outcome State Fault Refusal := .next (cvDispatch Config.params false s)

/-- DISPATCH_CV_GATED (R99 with `gate_en = 1`); the trigger poll of R92 comes earlier in the OVF step. Log 15. -/
def execDispatchCvGated (s : State) : Host.Outcome State Fault Refusal := .next (cvDispatch Config.params true s)

/-- DISPATCH_CALIBRATE (R100). -/
def execDispatchCalibrate (s : State) : Host.Outcome State Fault Refusal := .next (calTick Config.params s)

/-- What an overflow does before the dispatch (R91): poll, guard, acceptance, octave counter. -/
inductive OverflowHead where
  /-- `busy = 1`: the tick is dropped (R93). -/
  | dropped
  /-- Accepted; the octave counter has not reached zero (R95). -/
  | accepted
  /-- Accepted, and the tick processes (R95, R96). -/
  | processing
  deriving DecidableEq, Repr

/-- Step (1): the trigger poll, in gated CV mode only (R92). -/
def overflowPoll (s : State) : State := if gatedCv s then pollTrigger s else s

/-- Step (3): `oct_cnt <- oct_cnt - 1`, reloaded with `isr_period` when it reaches zero (R95). -/
def stepOctave (s : State) : State :=
  let n := s.seq.octCnt - 1
  { s with seq := { s.seq with octCnt := if n = 0 then s.ctl.isrPeriod else n } }

/-- Steps (1) to (3) of OVF (R91 to R95): the state before the dispatch and how far the overflow gets. -/
def overflowHead (s : State) : OverflowHead × State :=
  let s := overflowPoll s
  if s.seq.busy then (.dropped, s)
  else if s.seq.octCnt - 1 = 0 then (.processing, stepOctave (acceptOverflow s))
  else (.accepted, stepOctave (acceptOverflow s))

/-- `timer_cnt + 1 >= timer_period` (R90), compared without wrap-around. -/
def timerExpires (s : State) : Bool := decide (s.ctl.timerPeriod.toNat ≤ s.seq.timerCnt.toNat + 1)

/-- `timer_cnt` after one clock edge (R90). -/
def countTimer (s : State) : State :=
  { s with seq := { s.seq with timerCnt := if timerExpires s then 0 else s.seq.timerCnt + 1 } }

end Sys2Proof.Machine
end

