-- ==== Sys2Proof/Machine/Dispatch.lean ====
section
/-! DEFINITION. Dispatch.lean: one arm per instruction. -/

namespace Sys2Proof.Machine

def exec (i : Instr) (s : State) : Host.Outcome State Fault Refusal :=
  match i with
  | .nop => Sys2Proof.Machine.execNop s
  | .setCrush d => Sys2Proof.Machine.execSetCrush d s
  | .setGlide d => Sys2Proof.Machine.execSetGlide d s
  | .setResonance d => Sys2Proof.Machine.execSetResonance d s
  | .setRvbFeedback d => Sys2Proof.Machine.execSetRvbFeedback d s
  | .setRvbWet d => Sys2Proof.Machine.execSetRvbWet d s
  | .setRvbDelay d => Sys2Proof.Machine.execSetRvbDelay d s
  | .setLoopLength d => Sys2Proof.Machine.execSetLoopLength d s
  | .setMorphRate d => Sys2Proof.Machine.execSetMorphRate d s
  | .setRoot d => Sys2Proof.Machine.execSetRoot d s
  | .setScale d => Sys2Proof.Machine.execSetScale d s
  | .setRate rate octdiv => Sys2Proof.Machine.execSetRate rate octdiv s
  | .setMode mode gate => Sys2Proof.Machine.execSetMode mode gate s
  | .reservedD => Sys2Proof.Machine.execReservedD s
  | .reservedE => Sys2Proof.Machine.execReservedE s
  | .reservedF => Sys2Proof.Machine.execReservedF s
  | .idle => Sys2Proof.Machine.execIdle s
  | .loopOff => Sys2Proof.Machine.execLoopOff s
  | .crushOff => Sys2Proof.Machine.execCrushOff s
  | .dry => Sys2Proof.Machine.execDry s
  | .dispatchIdle => Sys2Proof.Machine.execDispatchIdle s
  | .dispatchAudio => Sys2Proof.Machine.execDispatchAudio s
  | .dispatchCvFree => Sys2Proof.Machine.execDispatchCvFree s
  | .dispatchCvGated => Sys2Proof.Machine.execDispatchCvGated s
  | .dispatchCalibrate => Sys2Proof.Machine.execDispatchCalibrate s

end Sys2Proof.Machine
end

