-- ==== Sys2Proof/Machine/Events.lean ====
section
/-! DEFINITION. Events.lean: the steps of the agents (spec/00_scope.md R4), when each is enabled (spec/20_memory.md R58)
and which comes next. -/

namespace Sys2Proof.Machine

/-- The dispatch selector `{gate_en, mode}` as the registers stand (30_encoding.md R75, 40_tick_dispatcher.md R96). -/
def currentSelector (s : State) : Selector := selectorOf s.ctl.gateEn s.ctl.mode

/-- OVF (40_tick_dispatcher.md R91): poll, guard, acceptance, octave counter; a processing tick runs the instruction
the dispatch selector decodes to. -/
def overflow (s : State) : Host.Outcome State Fault Refusal :=
  match overflowHead s with
  | (.dropped, s) => .next s
  | (.accepted, s) => .next s
  | (.processing, s) => exec (decode (.selector (currentSelector s))) s

/-- The pins at this overflow. Log 9. -/
def setPins (d : Draws) (s : State) : State := { s with env := { s.env with pins := d } }

/-- The word on the command port. -/
def setCmdWord (w : Option CommandWord) (s : State) : State := { s with env := { s.env with cmdWord := w } }

/-- The host presents a word; while one waits no second word can (47_host_interface.md R195). Log 6. -/
def presentCommand (w : CommandWord) (s : State) : State :=
  if s.env.cmdWord.isSome then s else setCmdWord (some w) s

/-- CMD (47_host_interface.md R195): with `cmd_valid` and `cmd_ready` the word is decoded and its whole effect happens
in this step; otherwise the host waits. Log 5. -/
def commandStep (s : State) : Host.Outcome State Fault Refusal :=
  match s.env.cmdWord with
  | none => .next s
  | some w => if cmdReady s then exec (decode (.command w)) (setCmdWord none s) else .next s

/-- One edge of `clk_timer` (40_tick_dispatcher.md R90): count, and at expiry deliver one overflow. Log 8. -/
def clockEdge (d : Draws) (s : State) : Host.Outcome State Fault Refusal :=
  if timerExpires s then overflow (setPins d (countTimer s)) else .next (countTimer s)

/-- Reset (70_reset_and_hazards.md R235); the schedule is the outside's and goes on. Log 19. -/
def resetStep (P : Params) (s : State) : State :=
  { State.resetWith P with env := { Env.reset with queue := s.env.queue, freeIdx := s.env.freeIdx } }

/-- One event. A step that is not enabled has no transition, the agent waits (20_memory.md R58). Log 5. -/
def takeEvent (e : Event) (s : State) : Host.Outcome State Fault Refusal :=
  match e with
  | .ovf d => overflow (setPins d s)
  | .timerClock d => clockEdge d s
  | .done us => .next (if s.seq.busy then finishTick us s else s)
  | .present w => .next (presentCommand w s)
  | .cmd => commandStep s
  | .read a => .next (if rdReady s then readPort Config.params a s else s)
  | .rebuild => .next (if rebuildEnabled s then rebuildStep Config.params s else s)
  | .rst => .next (resetStep Config.params s)

/-- The event that comes next: the oldest one fixed in the state, else the free schedule's. Log 4. -/
def nextEvent (s : State) : Event :=
  match s.env.queue with
  | e :: _ => e
  | [] => Config.freeEvent s.env.freeIdx

/-- Move past the event that comes next. Log 4. -/
def consumeEvent (s : State) : State :=
  match s.env.queue with
  | _ :: q => { s with env := { s.env with queue := q } }
  | [] => { s with env := { s.env with freeIdx := s.env.freeIdx + 1 } }

/-- Put an event first. -/
def scheduleFirst (e : Event) (s : State) : State :=
  { s with env := { s.env with queue := e :: s.env.queue } }

/-- Place a command word on the port, make the port ready and let CMD come next. Log 16. -/
def placeCommand (w : CommandWord) (s : State) : State :=
  scheduleFirst .cmd
    { s with
        seq := { s.seq with busy := false }
        eng := { s.eng with rebuildIdx := rebuildIdle }
        env := { s.env with cmdWord := some w } }

/-- Load the selector registers and let a processing overflow come next, with the pins as they stand. Log 16. -/
def placeSelector (v : Selector) (s : State) : State :=
  scheduleFirst (.ovf s.env.pins)
    { s with
        ctl := { s.ctl with mode := modeOfBits (v.extractLsb' 0 2), gateEn := v.getLsbD 2 }
        seq := { s.seq with busy := false, octCnt := 1 } }

/-- Place the word of a table row where the next step takes it from; bits that are no word of the block place
nothing. Log 16. -/
def placeWord (nbits w : Nat) (s : State) : State :=
  match Encoded.ofBits nbits w with
  | .ok (.command c) => placeCommand c s
  | .ok (.selector v) => placeSelector v s
  | .error _ => s

end Sys2Proof.Machine
end

