-- ==== Sys2Proof/Machine/Step.lean ====
section
/-! DEFINITION. Step.lean: one step of the machine, and where a test places the next instruction. -/

namespace Sys2Proof.Machine

/-- One step: take the event that comes next (spec/00_scope.md R4, spec/20_memory.md R57). -/
def step (s : State) : Host.Outcome State Fault Refusal := takeEvent (nextEvent s) (consumeEvent s)

/-- `s` with the instruction of a table row placed so that the very next step runs it. Log 16. -/
def State.withFetchWord (s : State) (nbits w : Nat) : State := placeWord nbits w s

end Sys2Proof.Machine
end

