-- ==== Sys2Proof/Safety.lean ====
section
/-! DEFINITION. Safety.lean: what a sound state of the machine is: the invariants of spec/10_state.md R47, with those of
spec/43_reverb.md R141 and spec/41_bit_reduction.md R114, and the domains spec/10_state.md gives its registers. -/

namespace Sys2Proof.Machine

/-- (I-a) `1 <= oct_cnt <= isr_period` (10_state.md R47). -/
def OctaveInRange (s : State) : Prop := 1 ≤ s.seq.octCnt.toNat ∧ s.seq.octCnt.toNat ≤ s.ctl.isrPeriod.toNat

/-- (I-b) `1 <= cv_div_cnt <= CV_DIV` (10_state.md R47). -/
def DividerInRange (P : Params) (s : State) : Prop := 1 ≤ s.seq.cvDivCnt ∧ s.seq.cvDivCnt ≤ P.cvDiv

/-- (I-c) `(rvb_write - rvb_read) mod 2048 = rvb_delay` (10_state.md R47, 43_reverb.md R141). -/
def CursorsApart (s : State) : Prop :=
  (s.eng.rvbWrite.toNat + 2048 - s.eng.rvbRead.toNat) % 2048 = s.ctl.rvbDelay.toNat

/-- (I-d) `loop_length = 0` or `loop_pointer < loop_length` (10_state.md R47). -/
def PointerInLoop (s : State) : Prop :=
  s.ctl.loopLength = 0 ∨ s.eng.loopPointer.toNat < s.ctl.loopLength.toNat

/-- (I-e) `morph_counter <= 2^morph_rate` (10_state.md R47). -/
def MorphInRange (s : State) : Prop := s.eng.morphCounter.toNat ≤ 2 ^ s.ctl.morphRate.toNat

/-- (I-g) `timer_period = MemRead(PERIOD_TABLE, rate_ctl)` (10_state.md R47). -/
def PeriodFromTable (P : Params) (s : State) : Prop := s.ctl.timerPeriod = P.periodTable s.ctl.rateCtl.toNat

/-- (I-h) `isr_period` is one of 1, 2, 4, 8, 16, 32 (10_state.md R47). -/
def DivisorLegal (s : State) : Prop := s.ctl.isrPeriod.toNat ∈ [1, 2, 4, 8, 16, 32]

/-- A lazily primed register: SENTINEL or a value in [0,1023] (10_state.md R36, R37). -/
def Primed (P : Params) (v : BitVec 16) : Prop := v = P.sentinel ∨ v.toNat ≤ 1023

/-- (I-i) `glide_rolling` and `cal_avg` are each SENTINEL or in [0,1023] (10_state.md R47). -/
def AveragesInDomain (P : Params) (s : State) : Prop := Primed P s.eng.glideRolling ∧ Primed P s.eng.calAvg

/-- The domains of `note_offset`, `scale_index` and `rebuild_idx`, and the constant `alpha`
(10_state.md R17, R23, R24, R40). -/
def RegistersInDomain (P : Params) (s : State) : Prop :=
  s.ctl.noteOffset.toNat ≤ 12 ∧ s.ctl.scaleIndex.toNat ≤ 21 ∧ s.eng.rebuildIdx.toNat ≤ 1024 ∧
    s.ctl.alpha = resetAlpha P

/-- Below `rebuild_idx` the table is the new staircase; with no rebuild in progress that is all of it
(41_bit_reduction.md R113, R114). -/
def TableBuilt (P : Params) (s : State) : Prop :=
  ∀ i : Sample, i.toNat < s.eng.rebuildIdx.toNat → bitReduce P i s = P.stair s.ctl.crush i

/-- The invariants of 10_state.md R47 and 41_bit_reduction.md R114, with the canonical form of the memories. (I-f),
every sample in [0,1023], is the type Sample. -/
structure Sound (P : Params) (s : State) : Prop where
  octave    : OctaveInRange s
  divider   : DividerInRange P s
  cursors   : CursorsApart s
  pointer   : PointerInLoop s
  morph     : MorphInRange s
  period    : PeriodFromTable P s
  divisor   : DivisorLegal s
  averages  : AveragesInDomain P s
  registers : RegistersInDomain P s
  table     : TableBuilt P s
  memory    : s.mem.wf P = true

end Sys2Proof.Machine
end

