-- ==== Sys2Proof/Certificates/Slice0/Obligations.lean ====
section
/-! DEFINITION. Obligations.lean: the statements for the provers. Each docstring names the rule of spec/ it formalises;
`P` stands for the parameters of spec/00_scope.md R5, and `Config.params` for the machine's own. -/

open Sys2Proof Sys2Proof.Machine

namespace Sys2Proof.Machine

/-- Every command word with opcode `op` runs, and leaves the state `eff` says. -/
def WordDoes (op : BitVec 4) (eff : CommandWord → State → State) : Prop :=
  ∀ (w : CommandWord) (s : State), opField w = op → exec (decode (.command w)) s = .next (eff w s)

/-- Every entry of every memory reads in `t` as in `s`, but those named in `except`. -/
def ReadsKept (P : Params) (s t : State) (except : Ram → Nat → Prop) : Prop :=
  ∀ (M : Ram) (i : Nat), ¬ except M i → memRead P M i t = memRead P M i s

/-- `n` ticks of one engine, tick `k` with the draws `x k` on the pins. -/
def runTicks (tick : State → State) (x : Nat → Draws) : Nat → State → State
  | 0, s => s
  | n + 1, s => tick (setPins (x n) (runTicks tick x n s))

/-- `n` runs of the reverb line, run `k` on the filtered sample `f k`. -/
def runReverb (P : Params) (f : Nat → Sample) : Nat → State → State
  | 0, s => s
  | n + 1, s => (reverb P (f n) (runReverb P f n s)).2

/-- The state after the trigger poll and the pin values of an overflow (40_tick_dispatcher.md R92), written out: the
level is recorded and a rising edge un-pauses in gated CV mode; in any other mode nothing is polled. -/
def polled (d : Draws) (s : State) : State :=
  { s with
      seq := { s.seq with
        paused := if s.ctl.mode = .cv ∧ s.ctl.gateEn = true ∧ d.trig = true ∧ s.seq.trigPrev = false then false
          else s.seq.paused
        trigPrev := if s.ctl.mode = .cv ∧ s.ctl.gateEn = true then d.trig else s.seq.trigPrev }
      env := { s.env with pins := d } }

/-- The registers an audio run of the effect chain on `v` writes, and the sample it returns
(44_loop_morph.md R150): the stages of the filter on `BITTAB[v]`, and the mix with the reverb sample read. -/
def chainFilter (P : Params) (v : Sample) (s : State) : FilterState :=
  filterStages P (memRead P .bittab v.toNat s) s.ctl.resonance s.ctl.alpha s.eng.fstate

/-- The output of the chain (43_reverb.md R135). -/
def chainOutput (P : Params) (v : Sample) (s : State) : Sample :=
  blend (chainFilter P v s).f4 (memRead P .rvb s.eng.rvbRead.toNat s) s.ctl.rvbWet

/-- What the chain writes into the reverb line (43_reverb.md R135). -/
def chainEcho (P : Params) (v : Sample) (s : State) : Sample :=
  blend (chainFilter P v s).f4 (memRead P .rvb s.eng.rvbRead.toNat s) s.ctl.rvbFeedback

/-- The note the quantizer plays for `v` (45_cv_quantizer.md R173, R178, R179), before the conversion. -/
def quantizerNote (P : Params) (v : Sample) (s : State) : Nat :=
  let note := (glideValue P s.eng.glideRolling s.ctl.glide v).toNat * 120 / 1024
  min 120 (note / 12 * 12 + walkDown (probMap P s) (note % 12) + s.ctl.noteOffset.toNat)

/-- The output of the quantizer for `v` (45_cv_quantizer.md R179). -/
def quantizerOutput (P : Params) (v : Sample) (s : State) : Sample :=
  BitVec.ofNat 10 (min 1023 (quantizerNote P v s * 1024 / 120))

/-- The blended value of the current loop position (44_loop_morph.md R152, R153). -/
def loopInput (P : Params) (s : State) : Sample :=
  let p := s.eng.loopPointer.toNat
  let c := s.eng.morphCounter.toNat
  let r := s.ctl.morphRate.toNat
  blend (memRead P .inbuf p s) (memRead P .morphbuf p s)
    (P.ease (if r ≥ 8 then c / 2 ^ (r - 8) else c * 2 ^ (8 - r)))

/-- The pointer after a loop tick (44_loop_morph.md R156), for a pointer inside the loop. -/
def loopPointerAfter (s : State) : BitVec 8 :=
  if s.eng.loopPointer.toNat + 1 = s.ctl.loopLength.toNat then 0 else s.eng.loopPointer + 1

/-- The counter after a loop tick (44_loop_morph.md R157), for a pointer inside the loop. -/
def morphCounterAfter (s : State) : BitVec 16 :=
  if s.eng.loopPointer.toNat + 1 = s.ctl.loopLength.toNat then
    (if s.eng.morphCounter = 0 then BitVec.ofNat 16 (2 ^ s.ctl.morphRate.toNat) else s.eng.morphCounter - 1)
  else s.eng.morphCounter

/-- What a loop tick leaves in the three buffers at its position (44_loop_morph.md R154, R155): the output `y`, and at
a morph event the old input copied to MORPHBUF and the fresh sample `x` in INBUF. -/
def LoopBuffers (P : Params) (s t : State) (x y : Sample) : Prop :=
  memRead P .outbuf s.eng.loopPointer.toNat t = y ∧
  memRead P .morphbuf s.eng.loopPointer.toNat t =
    (if s.eng.morphCounter = 0 then memRead P .inbuf s.eng.loopPointer.toNat s
     else memRead P .morphbuf s.eng.loopPointer.toNat s) ∧
  memRead P .inbuf s.eng.loopPointer.toNat t =
    (if s.eng.morphCounter = 0 then x else memRead P .inbuf s.eng.loopPointer.toNat s)

/-- The entries an audio tick may write: its position of the three buffers and the reverb line's write position. -/
def AudioWrites (s : State) (M : Ram) (i : Nat) : Prop :=
  ((M = .inbuf ∨ M = .outbuf ∨ (M = .morphbuf ∧ s.ctl.loopLength ≠ 0)) ∧ i = s.eng.loopPointer.toNat) ∨
    (M = .rvb ∧ i = s.eng.rvbWrite.toNat)

/-- The entries a CV engine run may write: its position of the three buffers. -/
def CvWrites (s : State) (M : Ram) (i : Nat) : Prop :=
  (M = .inbuf ∨ M = .outbuf ∨ (M = .morphbuf ∧ s.ctl.loopLength ≠ 0)) ∧ i = s.eng.loopPointer.toNat

/-- What one run of the CV engine does (45_cv_quantizer.md R170, R171, R181, R182): `t` is `s` after the run, but for
the sequencing registers, which the caller's rule speaks of. -/
def CvEngineRun (P : Params) (s t : State) : Prop :=
  t.ctl = s.ctl ∧ t.env = s.env ∧ ReadsKept P s t (CvWrites s) ∧
  (s.ctl.loopLength = 0 →
    t.eng = { s.eng with
      glideRolling := glideValue P s.eng.glideRolling s.ctl.glide s.env.pins.adcCv
      probMap := probMap P s
      dacOut := quantizerOutput P s.env.pins.adcCv s
      loopPointer := s.eng.loopPointer + 1 } ∧
    memRead P .inbuf s.eng.loopPointer.toNat t = s.env.pins.adcCv ∧
    memRead P .outbuf s.eng.loopPointer.toNat t = quantizerOutput P s.env.pins.adcCv s) ∧
  (s.ctl.loopLength ≠ 0 → s.eng.loopPointer.toNat < s.ctl.loopLength.toNat →
    t.eng = { s.eng with
      glideRolling := glideValue P s.eng.glideRolling s.ctl.glide (loopInput P s)
      probMap := probMap P s
      dacOut := quantizerOutput P (loopInput P s) s
      loopPointer := loopPointerAfter s
      morphCounter := morphCounterAfter s } ∧
    LoopBuffers P s t s.env.pins.adcCv (quantizerOutput P (loopInput P s) s))

end Sys2Proof.Machine

/-! ## Encoding -/

/-- 30_encoding.md R72, R75, R77, R78: words written out from the encoding tables decode to what they stand for. That
0xC0000 decodes to IDLE and not to SET_MODE IDLE is the model's choice, log 13 (R78 lets a decoder skip the
pseudo-commands). -/
def Obligations.WrittenOutWordsDecode : Prop :=
  decode (.command 0b00000000000000000000#20) = .nop ∧
  decode (.command 0b00010000001000000000#20) = .setCrush 512#10 ∧
  decode (.command 0b00110000000011001000#20) = .setResonance 200#8 ∧
  decode (.command 0b01100000011111111111#20) = .setRvbDelay 2047#11 ∧
  decode (.command 0b10110000110100101100#20) = .setRate 300#10 3#3 ∧
  decode (.command 0b11000000000000000110#20) = .setMode .cv true ∧
  decode (.command 0b11000000000000000000#20) = .idle ∧
  decode (.command 0b11010001001000110100#20) = .reservedD ∧
  decode (.selector 0b110#3) = .dispatchCvGated ∧
  decode (.selector 0b101#3) = .dispatchAudio

/-- 30_encoding.md R70 to R72, R75, R78: decoding an encoded instruction gives it back, under the pseudo-command's name
where its word carries one (log 13); a well-formed instruction comes back as it is. -/
def Obligations.DecodeOfEncodeIsTheInstruction : Prop :=
  ∀ i : Instr, decode (encode i) = i.abbreviate ∧ (i.wellFormed = true → decode (encode i) = i)

/-- 30_encoding.md R74: words that differ only in don't-care bits are the same command. The decoder may name one of
them by its pseudo-command (log 13), so the commands are compared expanded, and by what they do. -/
def Obligations.DontCareBitsAreIgnored : Prop :=
  ∀ w v : CommandWord, opField w = opField v →
    (∀ k, k < operandWidth (opField w) → w.getLsbD k = v.getLsbD k) →
    (decode (.command w)).expand = (decode (.command v)).expand ∧
      ∀ s, exec (decode (.command w)) s = exec (decode (.command v)) s

/-- 30_encoding.md R78: each pseudo-command's word is its real command's, and it runs as that command. -/
def Obligations.PseudoCommandsRunAsTheirCommands : Prop :=
  (encode .idle = .command 0xC0000#20 ∧ encode .loopOff = .command 0x70000#20 ∧
    encode .crushOff = .command 0x10000#20 ∧ encode .dry = .command 0x50000#20) ∧
  (∀ i : Instr, encode i.expand = encode i) ∧
  ∀ (i : Instr) (s : State), exec i.expand s = exec i s ∧ exec i.abbreviate s = exec i s

/-- 30_encoding.md R75: the encoding of the `mode` field, and the dispatch selector `{gate_en, mode}` formed from it and
decoded by the table `x00`, `x01`, `010`, `110`, `x11`. -/
def Obligations.SelectorsDecodeByTheTable : Prop :=
  (modeOfBits 0b00#2 = .idle ∧ modeOfBits 0b01#2 = .audio ∧ modeOfBits 0b10#2 = .cv ∧ modeOfBits 0b11#2 = .calibrate) ∧
  (∀ (gate : Bool) (b : BitVec 2),
    (selectorOf gate (modeOfBits b)).toNat = (if gate then 4 else 0) + b.toNat) ∧
  ∀ gate : Bool,
    decode (.selector (selectorOf gate .idle)) = .dispatchIdle ∧
    decode (.selector (selectorOf gate .audio)) = .dispatchAudio ∧
    decode (.selector (selectorOf gate .cv)) = (if gate then .dispatchCvGated else .dispatchCvFree) ∧
    decode (.selector (selectorOf gate .calibrate)) = .dispatchCalibrate

/-! ## Commands -/

/-- 42_filter_chain.md R122, 43_reverb.md R138, R139, 45_cv_quantizer.md R174: each of the four plain 8-bit setters
stores its operand and changes nothing else, from the instruction and from every word with its opcode. -/
def Obligations.PlainSettersStoreTheirOperand : Prop :=
  (∀ (d : BitVec 8) (s : State),
    exec (.setResonance d) s = .next { s with ctl := { s.ctl with resonance := d } } ∧
    exec (.setRvbFeedback d) s = .next { s with ctl := { s.ctl with rvbFeedback := d } } ∧
    exec (.setRvbWet d) s = .next { s with ctl := { s.ctl with rvbWet := d } } ∧
    exec (.setGlide d) s = .next { s with ctl := { s.ctl with glide := d } }) ∧
  WordDoes 0x3#4 (fun w s => { s with ctl := { s.ctl with resonance := w.extractLsb' 0 8 } }) ∧
  WordDoes 0x4#4 (fun w s => { s with ctl := { s.ctl with rvbFeedback := w.extractLsb' 0 8 } }) ∧
  WordDoes 0x5#4 (fun w s => { s with ctl := { s.ctl with rvbWet := w.extractLsb' 0 8 } }) ∧
  WordDoes 0x2#4 (fun w s => { s with ctl := { s.ctl with glide := w.extractLsb' 0 8 } })

/-- 41_bit_reduction.md R112: SET_CRUSH writes `crush`, `scale_crush` and `rebuild_idx` and nothing else, and the
command port is not ready after it, whatever the value was before, nor as long as the rebuild is not complete. -/
def Obligations.SetCrushWritesBothControlsAndStartsRebuild : Prop :=
  (∀ (d : BitVec 10) (s : State),
    exec (.setCrush d) s = .next { s with
      ctl := { s.ctl with crush := d, scaleCrush := d }
      eng := { s.eng with rebuildIdx := 0#11 } }) ∧
  WordDoes 0x1#4 (fun w s => { s with
      ctl := { s.ctl with crush := w.extractLsb' 0 10, scaleCrush := w.extractLsb' 0 10 }
      eng := { s.eng with rebuildIdx := 0#11 } }) ∧
  (∀ (d : BitVec 10) (s t : State), exec (.setCrush d) s = .next t → cmdReady t = false) ∧
  ∀ u : State, u.eng.rebuildIdx.toNat < 1024 → cmdReady u = false

/-- 43_reverb.md R140: SET_RVB_DELAY writes the delay and the derived read cursor in one step; the write cursor, the
buffer and everything else are unchanged. -/
def Obligations.SetRvbDelayMovesTheReadCursor : Prop :=
  (∀ (d : BitVec 11) (s : State), ∃ r : BitVec 11,
    exec (.setRvbDelay d) s = .next { s with
      ctl := { s.ctl with rvbDelay := d }
      eng := { s.eng with rvbRead := r } } ∧
    r.toNat = (s.eng.rvbWrite.toNat + 2048 - d.toNat) % 2048) ∧
  WordDoes 0x6#4 (fun w s => { s with
      ctl := { s.ctl with rvbDelay := w.extractLsb' 0 11 }
      eng := { s.eng with
        rvbRead := (BitVec.ofNat 11 ((s.eng.rvbWrite.toNat + 2048 - (w.extractLsb' 0 11).toNat) % 2048)) } })

/-- 44_loop_morph.md R159: SET_LOOP_LENGTH stores the length and zeroes a pointer at or beyond it; with length 0 the
pointer stays; nothing else changes. -/
def Obligations.SetLoopLengthKeepsThePointerInTheLoop : Prop :=
  (∀ (d : BitVec 8) (s : State),
    exec (.setLoopLength d) s = .next { s with
      ctl := { s.ctl with loopLength := d }
      eng := { s.eng with loopPointer :=
        if d.toNat ≠ 0 ∧ d.toNat ≤ s.eng.loopPointer.toNat then 0#8 else s.eng.loopPointer } }) ∧
  WordDoes 0x7#4 (fun w s => { s with
      ctl := { s.ctl with loopLength := w.extractLsb' 0 8 }
      eng := { s.eng with loopPointer := (
        if (w.extractLsb' 0 8).toNat ≠ 0 ∧ (w.extractLsb' 0 8).toNat ≤ s.eng.loopPointer.toNat then 0#8
        else s.eng.loopPointer) } })

/-- 44_loop_morph.md R160: SET_MORPH_RATE stores the rate and reloads the counter with `2^d`; nothing else changes. -/
def Obligations.SetMorphRateReloadsTheCounter : Prop :=
  (∀ (d : BitVec 4) (s : State), ∃ c : BitVec 16,
    exec (.setMorphRate d) s = .next { s with
      ctl := { s.ctl with morphRate := d }
      eng := { s.eng with morphCounter := c } } ∧
    c.toNat = 2 ^ d.toNat) ∧
  WordDoes 0x8#4 (fun w s => { s with
      ctl := { s.ctl with morphRate := w.extractLsb' 0 4 }
      eng := { s.eng with morphCounter := BitVec.ofNat 16 (2 ^ (w.extractLsb' 0 4).toNat) } })

/-- 45_cv_quantizer.md R175, R180: SET_ROOT stores `min(d, 12)` and SET_SCALE `min(d, 21)`; nothing else changes. -/
def Obligations.SetRootAndSetScaleSaturate : Prop :=
  (∀ (d : BitVec 4) (s : State), ∃ n : BitVec 4,
    exec (.setRoot d) s = .next { s with ctl := { s.ctl with noteOffset := n } } ∧ n.toNat = min d.toNat 12) ∧
  (∀ (d : BitVec 5) (s : State), ∃ n : BitVec 5,
    exec (.setScale d) s = .next { s with ctl := { s.ctl with scaleIndex := n } } ∧ n.toNat = min d.toNat 21) ∧
  WordDoes 0x9#4 (fun w s => { s with ctl := { s.ctl with
    noteOffset := BitVec.ofNat 4 (min (w.extractLsb' 0 4).toNat 12) } }) ∧
  WordDoes 0xA#4 (fun w s => { s with ctl := { s.ctl with
    scaleIndex := BitVec.ofNat 5 (min (w.extractLsb' 0 5).toNat 21) } })

/-- 47_host_interface.md R197, 30_encoding.md R80: SET_RATE writes the index, the period from the table, the divisor
`2^min(octdiv, 5)`, reloads the octave counter and clears the timer; nothing else changes. -/
def Obligations.SetRateLoadsPeriodAndDivisor : Prop :=
  (∀ (rate : BitVec 10) (octdiv : BitVec 3) (s : State), ∃ n : BitVec 6,
    exec (.setRate rate octdiv) s = .next { s with
      ctl := { s.ctl with rateCtl := rate, timerPeriod := Config.params.periodTable rate.toNat, isrPeriod := n }
      seq := { s.seq with octCnt := n, timerCnt := 0#16 } } ∧
    n.toNat = 2 ^ min octdiv.toNat 5) ∧
  ∀ (w : CommandWord) (s : State), opField w = 0xB#4 →
    exec (decode (.command w)) s = exec (.setRate (w.extractLsb' 0 10) (w.extractLsb' 10 3)) s

/-- 47_host_interface.md R196: SET_MODE writes the mode, the gate, `paused <- 1`, and centres the filter when the mode
is Idle; nothing else is reset. -/
def Obligations.SetModePausesAndCentresOnIdle : Prop :=
  (∀ (m : Mode) (gate : Bool) (s : State), m ≠ .idle →
    exec (.setMode m gate) s = .next { s with
      ctl := { s.ctl with mode := m, gateEn := gate }
      seq := { s.seq with paused := true } }) ∧
  (∀ (gate : Bool) (s : State),
    exec (.setMode .idle gate) s = .next { s with
      ctl := { s.ctl with mode := .idle, gateEn := gate }
      seq := { s.seq with paused := true }
      eng := { s.eng with fstate := ⟨512#10, 512#10, 512#10, 512#10, 512#10⟩ } }) ∧
  (∀ s : State, exec .idle s = exec (.setMode .idle false) s) ∧
  ∀ (w : CommandWord) (s : State), opField w = 0xC#4 →
    exec (decode (.command w)) s = exec (.setMode (modeOfBits (w.extractLsb' 0 2)) (w.getLsbD 2)) s

/-- 47_host_interface.md R198, R199, 30_encoding.md R73: NOP and the three reserved opcodes are accepted and change no
state. -/
def Obligations.NopAndReservedChangeNothing : Prop :=
  (∀ s : State, exec .nop s = .next s ∧ exec .reservedD s = .next s ∧ exec .reservedE s = .next s ∧
    exec .reservedF s = .next s) ∧
  (∀ op : BitVec 4, op = 0x0#4 ∨ op = 0xD#4 ∨ op = 0xE#4 ∨ op = 0xF#4 → WordDoes op (fun _ s => s))

/-- 30_encoding.md R78: the pseudo-commands complete, with their real command's effect written out. -/
def Obligations.PseudoCommandsComplete : Prop :=
  ∀ s : State,
    exec .loopOff s = .next { s with ctl := { s.ctl with loopLength := 0#8 } } ∧
    exec .crushOff s = .next { s with
      ctl := { s.ctl with crush := 0#10, scaleCrush := 0#10 }
      eng := { s.eng with rebuildIdx := 0#11 } } ∧
    exec .dry s = .next { s with ctl := { s.ctl with rvbWet := 0#8 } } ∧
    exec .idle s = .next { s with
      ctl := { s.ctl with mode := .idle, gateEn := false }
      seq := { s.seq with paused := true }
      eng := { s.eng with fstate := ⟨512#10, 512#10, 512#10, 512#10, 512#10⟩ } }

/-! ## Steps -/

/-- The model's schedule (log 4): a step takes the oldest event of the queue and drops it, and where the queue is empty
the free schedule's event, advancing its counter. -/
def Obligations.StepTakesTheNextEvent : Prop :=
  (∀ (e : Event) (q : List Event) (s : State), s.env.queue = e :: q →
    step s = takeEvent e { s with env := { s.env with queue := q } }) ∧
  ∀ s : State, s.env.queue = [] →
    step s = takeEvent (Config.freeEvent s.env.freeIdx) { s with env := { s.env with freeIdx := s.env.freeIdx + 1 } }

/-- 47_host_interface.md R195 with the port split of log 6: a CMD step with a word waiting and the port ready runs the
decoded instruction on the state with the word taken; while the port is not ready the word goes on waiting and nothing
else changes; the port is ready exactly when `busy = 0` and `rebuild_idx = 1024`; a word is presented only where none
waits. -/
def Obligations.CommandStepRunsTheWaitingWord : Prop :=
  (∀ s : State, cmdReady s = true ↔ s.seq.busy = false ∧ s.eng.rebuildIdx = 1024#11) ∧
  (∀ (s : State) (w : CommandWord), nextEvent s = .cmd → s.env.cmdWord = some w → cmdReady s = true →
    step s = exec (decode (.command w)) { consumeEvent s with env := { (consumeEvent s).env with cmdWord := none } }) ∧
  (∀ s : State, nextEvent s = .cmd → s.env.cmdWord = none ∨ cmdReady s = false →
    step s = .next (consumeEvent s) ∧ (consumeEvent s).env.cmdWord = s.env.cmdWord) ∧
  ∀ (s : State) (w : CommandWord), nextEvent s = .present w →
    step s = .next { consumeEvent s with env := { (consumeEvent s).env with
      cmdWord := (if s.env.cmdWord = none then some w else s.env.cmdWord) } }

/-- 40_tick_dispatcher.md R91 to R96: an overflow that is accepted when the octave counter stands at 1 polls, sets
`busy`, reloads the counter and runs the instruction that the dispatch selector decodes to. -/
def Obligations.ProcessingTickRunsTheSelectedInstruction : Prop :=
  ∀ (s : State) (d : Draws), nextEvent s = .ovf d → s.seq.busy = false → s.seq.octCnt = 1#6 →
    step s = exec (decode (.selector (selectorOf s.ctl.gateEn s.ctl.mode)))
      { polled d (consumeEvent s) with seq := { (polled d (consumeEvent s)).seq with
          busy := true, octCnt := s.ctl.isrPeriod } }

/-- 40_tick_dispatcher.md R94, R95: an overflow accepted with the octave counter above 1 polls, sets `busy`, decrements
the counter and does nothing more. -/
def Obligations.AcceptedTickOnlyCountsDown : Prop :=
  ∀ (s : State) (d : Draws), nextEvent s = .ovf d → s.seq.busy = false → 2 ≤ s.seq.octCnt.toNat →
    ∃ n : BitVec 6, n.toNat + 1 = s.seq.octCnt.toNat ∧
      step s = .next { polled d (consumeEvent s) with seq := { (polled d (consumeEvent s)).seq with
          busy := true, octCnt := n } }

/-- 40_tick_dispatcher.md R93, with R92 for what it may still do: an overflow while `busy = 1` is dropped; but for the
trigger poll of gated CV mode (and the pins, log 9) nothing changes. -/
def Obligations.OverflowWhileBusyIsDropped : Prop :=
  ∀ (s : State) (d : Draws), nextEvent s = .ovf d → s.seq.busy = true →
    step s = .next (polled d (consumeEvent s))

/-- 40_tick_dispatcher.md R95: with `isr_period = N` exactly one of every `N` consecutive accepted ticks finds the
counter at 1 and processes, and after `N` of them the counter stands where it stood. -/
def Obligations.OneTickInNProcesses : Prop :=
  ∀ s : State, OctaveInRange s →
    ((List.range s.ctl.isrPeriod.toNat).filter
      (fun k => ((stepOctave^[k]) s).seq.octCnt == 1#6)).length = 1 ∧
    ((stepOctave^[s.ctl.isrPeriod.toNat]) s) = s

/-- 40_tick_dispatcher.md R90: a clock edge counts; where `timer_cnt + 1 >= timer_period` it clears the counter and
delivers one overflow in the same step. -/
def Obligations.ClockEdgeCountsOrOverflows : Prop :=
  ∀ (s : State) (d : Draws), nextEvent s = .timerClock d →
    (s.seq.timerCnt.toNat + 1 < s.ctl.timerPeriod.toNat → ∃ n : BitVec 16, n.toNat = s.seq.timerCnt.toNat + 1 ∧
      step s = .next { consumeEvent s with seq := { (consumeEvent s).seq with timerCnt := n } }) ∧
    (s.ctl.timerPeriod.toNat ≤ s.seq.timerCnt.toNat + 1 →
      step s = takeEvent (.ovf d) { consumeEvent s with seq := { (consumeEvent s).seq with timerCnt := 0#16 } })

/-- 40_tick_dispatcher.md R90: "overflows are `timer_period` timer clocks apart (one clock apart if `timer_period` is 0
or 1)": from a cleared counter, the edge that expires is the `timer_period`-th and none before it. -/
def Obligations.OverflowsAreOnePeriodApart : Prop :=
  ∀ s : State, s.seq.timerCnt = 0#16 →
    (∀ k, k + 1 < s.ctl.timerPeriod.toNat → timerExpires ((countTimer^[k]) s) = false) ∧
    timerExpires ((countTimer^[max 1 s.ctl.timerPeriod.toNat - 1]) s) = true ∧
    ((countTimer^[max 1 s.ctl.timerPeriod.toNat]) s) = s

/-- 40_tick_dispatcher.md R101, 60_exceptions.md R216: DONE, enabled when `busy = 1`, records the elapsed time saturated
at 65535 and clears `busy`; otherwise it is not taken (log 5). -/
def Obligations.DoneRecordsTheFramePeriod : Prop :=
  ∀ (s : State) (us : Nat), nextEvent s = .done us →
    (s.seq.busy = true → ∃ e : BitVec 16, e.toNat = min us 65535 ∧
      step s = .next { consumeEvent s with seq := { (consumeEvent s).seq with framePeriod := e, busy := false } }) ∧
    (s.seq.busy = false → step s = .next (consumeEvent s))

/-- 20_memory.md R54, R55, R64, R65: a READ with `busy = 0` returns the value of the read map and changes nothing
else. -/
def Obligations.ReadReturnsTheMappedValue : Prop :=
  (∀ (s : State) (a : BitVec 12), nextEvent s = .read a → s.seq.busy = false →
    step s = .next { consumeEvent s with env := { (consumeEvent s).env with
      rdData := readMap Config.params a (consumeEvent s) } }) ∧
  ∀ (P : Params) (s : State),
    (∀ i, i < 256 →
      readMap P (BitVec.ofNat 12 i) s = (memRead P .inbuf i s).zeroExtend 16 ∧
      readMap P (BitVec.ofNat 12 (0x100 + i)) s = (memRead P .outbuf i s).zeroExtend 16 ∧
      readMap P (BitVec.ofNat 12 (0x200 + i)) s = (memRead P .morphbuf i s).zeroExtend 16) ∧
    (∀ i, i < 12 → (readMap P (BitVec.ofNat 12 (0x300 + i)) s).toNat = if s.eng.probMap.getLsbD i then 1 else 0) ∧
    (readMap P 0x310#12 s).toNat = s.eng.loopPointer.toNat ∧
    readMap P 0x311#12 s = s.seq.framePeriod ∧
    readMap P 0x312#12 s = s.eng.calAvg ∧
    ∀ a : BitVec 12, (0x30C ≤ a.toNat ∧ a.toNat ≤ 0x30F) ∨ 0x313 ≤ a.toNat → readMap P a s = 0#16

/-- 20_memory.md R58, with the waiting of log 5: while `busy = 1` the steps CMD, READ and REBUILD_STEP change nothing,
and with no rebuild in progress REBUILD_STEP changes nothing. -/
def Obligations.HostAndRebuildWaitWhileBusy : Prop :=
  ∀ s : State,
    (s.seq.busy = true → (nextEvent s = .cmd ∨ nextEvent s = .rebuild ∨ ∃ a, nextEvent s = .read a) →
      step s = .next (consumeEvent s)) ∧
    (nextEvent s = .rebuild → 1024 ≤ s.eng.rebuildIdx.toNat → step s = .next (consumeEvent s)) ∧
    (nextEvent s = .cmd → s.eng.rebuildIdx ≠ 1024#11 → step s = .next (consumeEvent s))

/-- 60_exceptions.md R215: "A model's step function for this block never returns a fault"; and no instruction does. -/
def Obligations.EveryStepAnswersANextState : Prop :=
  (∀ s : State, ∃ t, step s = .next t) ∧ ∀ (i : Instr) (s : State), ∃ t, exec i s = .next t

/-- 10_state.md R49: who may write what, by the event a step takes. -/
def Obligations.EachAgentWritesOnlyItsOwnState : Prop :=
  ∀ s t : State, step s = .next t →
    ((∃ d, nextEvent s = .ovf d) ∨ (∃ d, nextEvent s = .timerClock d) ∨ (∃ us, nextEvent s = .done us) →
      t.ctl = s.ctl ∧ t.eng.rebuildIdx = s.eng.rebuildIdx ∧ t.mem.bittab = s.mem.bittab ∧
        t.env.cmdWord = s.env.cmdWord ∧ t.env.rdData = s.env.rdData) ∧
    ((∃ a, nextEvent s = .read a) ∨ (∃ w, nextEvent s = .present w) →
      t.ctl = s.ctl ∧ t.seq = s.seq ∧ t.eng = s.eng ∧ t.mem = s.mem) ∧
    (nextEvent s = .rebuild →
      t.ctl = s.ctl ∧ t.seq = s.seq ∧ t.eng = { s.eng with rebuildIdx := t.eng.rebuildIdx } ∧
        t.mem = { s.mem with bittab := t.mem.bittab }) ∧
    (nextEvent s = .cmd →
      t.mem = s.mem ∧
      t.seq = { s.seq with paused := t.seq.paused, octCnt := t.seq.octCnt, timerCnt := t.seq.timerCnt } ∧
      t.eng = { s.eng with
        fstate := t.eng.fstate, rvbRead := t.eng.rvbRead, loopPointer := t.eng.loopPointer
        morphCounter := t.eng.morphCounter, rebuildIdx := t.eng.rebuildIdx })

/-- 40_tick_dispatcher.md R103: between writes `dac_out` holds: no step but an overflow or a reset writes it, and an
accepted tick that does not process, a dropped tick, and a CV tick stopped by the coarse divider or the gate leave
it. -/
def Obligations.DacHoldsBetweenProcessingTicks : Prop :=
  (∀ s t : State, step s = .next t → t.eng.dacOut ≠ s.eng.dacOut →
    nextEvent s = .rst ∨ (∃ d, nextEvent s = .ovf d) ∨
      ∃ d, nextEvent s = .timerClock d ∧ s.ctl.timerPeriod.toNat ≤ s.seq.timerCnt.toNat + 1) ∧
  ∀ (s t : State) (d : Draws), nextEvent s = .ovf d → step s = .next t →
    (s.seq.busy = true ∨ 2 ≤ s.seq.octCnt.toNat ∨
      (s.ctl.mode = .cv ∧ (2 ≤ s.seq.cvDivCnt ∨
        (s.ctl.gateEn = true ∧ s.seq.paused = true ∧ (d.trig = false ∨ s.seq.trigPrev = true))))) →
    t.eng.dacOut = s.eng.dacOut

/-- What a placed table word does (log 16): the very next step runs the decoded command on the state with the port
ready and the word taken, or the decoded selector on the state with that selector loaded and the tick accepted. -/
def Obligations.PlacedWordRunsNext : Prop :=
  (∀ (s : State) (w : CommandWord),
    step (s.withFetchWord 24 w.toNat) = exec (decode (.command w)) { s with
      seq := { s.seq with busy := false }
      eng := { s.eng with rebuildIdx := 1024#11 }
      env := { s.env with cmdWord := none } }) ∧
  ∀ (s : State) (v : Selector), ∃ u : State,
    step (s.withFetchWord 8 v.toNat) = exec (decode (.selector v)) u ∧
    u.ctl = { s.ctl with mode := modeOfBits (v.extractLsb' 0 2), gateEn := v.getLsbD 2 } ∧
    u.seq = { s.seq with busy := true, octCnt := s.ctl.isrPeriod, paused := u.seq.paused, trigPrev := u.seq.trigPrev } ∧
    u.eng = s.eng ∧ u.mem = s.mem ∧ u.env = s.env

/-! ## Reset and invariants -/

/-- 10_state.md R48: the reset table, row by row; the sample memories read as the open parameters. -/
def Obligations.ResetStateIsTheTable : Prop :=
  let s := State.reset
  (s.ctl.mode = .idle ∧ s.ctl.gateEn = false ∧ s.ctl.crush = 0#10 ∧ s.ctl.scaleCrush = 0#10 ∧
    s.ctl.resonance = 0#8 ∧ s.ctl.alpha.toNat = 255 * Config.params.cutoff / (128 + Config.params.cutoff) ∧
    s.ctl.rvbFeedback = 0#8 ∧ s.ctl.rvbWet = 0#8 ∧ s.ctl.rvbDelay = 0#11 ∧ s.ctl.loopLength = 0#8 ∧
    s.ctl.morphRate = 0#4 ∧ s.ctl.glide = 0#8 ∧ s.ctl.noteOffset = 0#4 ∧ s.ctl.scaleIndex = 0#5 ∧
    s.ctl.rateCtl = 0#10 ∧ s.ctl.timerPeriod = Config.params.periodTable 0 ∧ s.ctl.isrPeriod = 1#6) ∧
  (s.seq.timerCnt = 0#16 ∧ s.seq.busy = false ∧ s.seq.octCnt = 1#6 ∧ s.seq.cvDivCnt = Config.params.cvDiv ∧
    s.seq.trigPrev = false ∧ s.seq.paused = true ∧ s.seq.framePeriod = 0#16) ∧
  (s.eng.fstate = ⟨512#10, 512#10, 512#10, 512#10, 512#10⟩ ∧ s.eng.rvbRead = 0#11 ∧ s.eng.rvbWrite = 0#11 ∧
    s.eng.loopPointer = 0#8 ∧ s.eng.morphCounter = 1#16 ∧ s.eng.glideRolling = Config.params.sentinel ∧
    s.eng.calAvg = Config.params.sentinel ∧ s.eng.probMap = 0#12 ∧ s.eng.dacOut = 512#10 ∧ s.eng.rebuildIdx = 1024#11) ∧
  (∀ i, i < 1024 → (memRead Config.params .bittab i s).toNat = i) ∧
  (∀ i, memRead Config.params .inbuf i s = Config.params.initInbuf i ∧
    memRead Config.params .outbuf i s = Config.params.initOutbuf i ∧
    memRead Config.params .morphbuf i s = Config.params.initMorphbuf i ∧
    memRead Config.params .rvb i s = Config.params.initRvb i)

/-- 70_reset_and_hazards.md R235: from any state a reset leaves every piece of architectural state at its reset value
and no command waiting; the schedule goes on (log 19). -/
def Obligations.ResetEventRestoresTheResetState : Prop :=
  ∀ s : State, nextEvent s = .rst → ∃ t : State, step s = .next t ∧
    t.ctl = State.reset.ctl ∧ t.seq = State.reset.seq ∧ t.eng = State.reset.eng ∧ t.mem = State.reset.mem ∧
    t.env.cmdWord = none ∧ t.env.queue = (consumeEvent s).env.queue ∧ t.env.freeIdx = (consumeEvent s).env.freeIdx

/-- 10_state.md R47: the invariants hold after reset. -/
def Obligations.ResetStateIsSound : Prop := Sound Config.params State.reset

/-- 10_state.md R47, 41_bit_reduction.md R114: from every sound state, whatever event comes, a step gives a sound
state: I-a to I-i, the register domains, the table below the rebuild front, and the memories' canonical form. -/
def Obligations.EveryStepKeepsSoundness : Prop :=
  ∀ s t : State, Sound Config.params s → step s = .next t → Sound Config.params t

/-- 43_reverb.md R141: `(rvb_write - rvb_read) mod 2048 = rvb_delay` after reset and after every step. -/
def Obligations.ReverbCursorsStayOneDelayApart : Prop :=
  CursorsApart State.reset ∧ ∀ s t : State, CursorsApart s → step s = .next t → CursorsApart t

/-- 41_bit_reduction.md R114: after every step from a sound state, if no rebuild is in progress the table is the
staircase of `crush`, hence non-decreasing; while one is, it is the new staircase below `rebuild_idx` and the table as
it stood from there up. -/
def Obligations.WholeTableIsTheStaircase : Prop :=
  ∀ s t : State, Sound Config.params s → step s = .next t →
    (t.eng.rebuildIdx = 1024#11 →
      (∀ i : Sample, memRead Config.params .bittab i.toNat t = Config.params.stair t.ctl.crush i) ∧
      ∀ i j : Sample, i.toNat ≤ j.toNat →
        (memRead Config.params .bittab i.toNat t).toNat ≤ (memRead Config.params .bittab j.toNat t).toNat) ∧
    ∀ i : Sample,
      (i.toNat < t.eng.rebuildIdx.toNat →
        memRead Config.params .bittab i.toNat t = Config.params.stair t.ctl.crush i) ∧
      (t.eng.rebuildIdx.toNat ≤ i.toNat →
        memRead Config.params .bittab i.toNat t = memRead Config.params .bittab i.toNat s)

/-! ## Bit reduction -/

/-- 41_bit_reduction.md R113: an enabled REBUILD_STEP writes `STAIR(crush, rebuild_idx)` at `rebuild_idx`, advances the
index, and changes nothing else. -/
def Obligations.RebuildStepWritesOneEntry : Prop :=
  ∀ s : State, nextEvent s = .rebuild → s.seq.busy = false → s.eng.rebuildIdx.toNat < 1024 →
    s.mem.wf Config.params = true → ∃ t : State, step s = .next t ∧
      memRead Config.params .bittab s.eng.rebuildIdx.toNat t =
        Config.params.stair s.ctl.crush (BitVec.ofNat 10 s.eng.rebuildIdx.toNat) ∧
      t.eng.rebuildIdx.toNat = s.eng.rebuildIdx.toNat + 1 ∧
      ReadsKept Config.params s t (fun M i => M = .bittab ∧ i = s.eng.rebuildIdx.toNat) ∧
      t.ctl = s.ctl ∧ t.seq = s.seq ∧ t.eng = { s.eng with rebuildIdx := t.eng.rebuildIdx } ∧
      t.env = (consumeEvent s).env

/-- 41_bit_reduction.md R112, R113: after SET_CRUSH `d`, 1024 REBUILD_STEPs, each of them enabled, complete the rebuild:
the table is `STAIR(d, .)` and the command port is ready again. -/
def Obligations.RebuildCompletesIn1024Steps : Prop :=
  ∀ (P : Params) (d : BitVec 10) (s : State), s.mem.wf P = true → s.seq.busy = false →
    ∃ t : State, exec (.setCrush d) s = .next t ∧
      (∀ k, k < 1024 → rebuildEnabled (((rebuildStep P)^[k]) t) = true) ∧
      (∀ i : Sample, memRead P .bittab i.toNat (((rebuildStep P)^[1024]) t) = P.stair d i) ∧
      cmdReady (((rebuildStep P)^[1024]) t) = true

/-! ## Weighted average and filter chain -/

/-- 42_filter_chain.md R120: the weighted average of two samples, product first, floored by `>> 8`, with the sign
split; it is a sample. -/
def Obligations.TweenIsTheSignSplitAverage : Prop :=
  ∀ (v1 v2 : Sample) (w : BitVec 8),
    (blend v1 v2 w).toNat =
      if v2.toNat ≥ v1.toNat then v1.toNat + ((v2.toNat - v1.toNat) * w.toNat) / 2 ^ 8
      else v1.toNat - ((v1.toNat - v2.toNat) * w.toNat) / 2 ^ 8

/-- 42_filter_chain.md R127 (a) to (e). -/
def Obligations.TweenStaysBetweenItsArguments : Prop :=
  ∀ (v1 v2 : Sample) (w : BitVec 8),
    let y := (blend v1 v2 w).toNat
    let d := max v1.toNat v2.toNat - min v1.toNat v2.toNat
    let y255 := (blend v1 v2 255#8).toNat
    (min v1.toNat v2.toNat ≤ y ∧ y ≤ max v1.toNat v2.toNat) ∧
    blend v1 v2 0#8 = v1 ∧
    (d = 0 → y255 = v2.toNat) ∧
    (v1.toNat < v2.toNat → y255 + (d + 255) / 256 = v2.toNat) ∧
    (v2.toNat < v1.toNat → y255 = v2.toNat + (d + 255) / 256) ∧
    (1 ≤ d ∧ d ≤ 256 → (d + 255) / 256 = 1) ∧ (d + 255) / 256 ≤ 4 ∧
    blend v1 v1 w = v1 ∧
    (d * w.toNat < 256 → blend v1 v2 w = v1)

/-- 42_filter_chain.md R121: `alpha` is the floored quotient, at most 254, and no step but a reset changes it. -/
def Obligations.AlphaIsFixedByTheCutoff : Prop :=
  (∀ P : Params, (resetAlpha P).toNat = 255 * P.cutoff / (128 + P.cutoff) ∧ (resetAlpha P).toNat ≤ 254) ∧
  ∀ s t : State, step s = .next t →
    t.ctl.alpha = if nextEvent s = .rst then resetAlpha Config.params else s.ctl.alpha

/-- 42_filter_chain.md R123, R124: one run of the filter chain, stage by stage, in Z where the rule is; nothing but
`fstate` changes, and the run returns the fourth pole. -/
def Obligations.FilterRunsTheFiveStages : Prop :=
  ∀ (P : Params) (q : Sample) (s : State), ∃ f : FilterState,
    filter P q s = (f.f4, { s with eng := { s.eng with fstate := f } }) ∧
    (let s4 : Int := s.eng.fstate.f4.toNat
     let inv : Int := if s4 ≤ 512 then (512 - s4) * P.fbNum / P.fbDen else -((s4 - 512) * P.fbNum / P.fbDen)
     let c : Int := max P.fbLo.toNat (min P.fbHi.toNat (q.toNat + inv))
     f.f0.toNat = tween q.toNat c.toNat s.ctl.resonance.toNat) ∧
    f.f1.toNat = tween s.eng.fstate.f1.toNat f.f0.toNat s.ctl.alpha.toNat ∧
    f.f2.toNat = tween s.eng.fstate.f2.toNat f.f1.toNat s.ctl.alpha.toNat ∧
    f.f3.toNat = tween s.eng.fstate.f3.toNat f.f2.toNat s.ctl.alpha.toNat ∧
    f.f4.toNat = tween s.eng.fstate.f4.toNat f.f3.toNat s.ctl.alpha.toNat

/-! ## Reverb -/

/-- 43_reverb.md R135, R136: one run of the reverb line: the sample read at the read cursor, the value written at the
write cursor, the value returned, both cursors one further, nothing else changed. -/
def Obligations.ReverbReadsWritesMixesAdvances : Prop :=
  (∀ r : Sample, recenter r = r) ∧
  ∀ (P : Params) (f : Sample) (s : State), s.mem.wf P = true →
    let r := memRead P .rvb s.eng.rvbRead.toNat s
    let y := (reverb P f s).1
    let t := (reverb P f s).2
    y = blend f r s.ctl.rvbWet ∧
    memRead P .rvb s.eng.rvbWrite.toNat t = blend f r s.ctl.rvbFeedback ∧
    ReadsKept P s t (fun M i => M = .rvb ∧ i = s.eng.rvbWrite.toNat) ∧
    t.eng.rvbRead.toNat = (s.eng.rvbRead.toNat + 1) % 2048 ∧
    t.eng.rvbWrite.toNat = (s.eng.rvbWrite.toNat + 1) % 2048 ∧
    t.eng = { s.eng with rvbRead := t.eng.rvbRead, rvbWrite := t.eng.rvbWrite } ∧
    t.ctl = s.ctl ∧ t.seq = s.seq ∧ t.env = s.env

/-- 43_reverb.md R142: what run `k` writes is what run `k + rvb_delay` reads; with `rvb_delay = 0` it is read 2048 runs
later; and the runs before that read whatever the line held at those positions. -/
def Obligations.ReverbEchoesAfterTheDelay : Prop :=
  ∀ (P : Params) (f : Nat → Sample) (s : State), s.mem.wf P = true → CursorsApart s →
    ∀ k : Nat,
      let D := if s.ctl.rvbDelay = 0#11 then 2048 else s.ctl.rvbDelay.toNat
      let u := runReverb P f k s
      let v := runReverb P f (k + D) s
      memRead P .rvb v.eng.rvbRead.toNat v =
        blend (f k) (memRead P .rvb u.eng.rvbRead.toNat u) s.ctl.rvbFeedback ∧
      (k < D → memRead P .rvb u.eng.rvbRead.toNat u =
        memRead P .rvb ((s.eng.rvbRead.toNat + k) % 2048) s)

/-! ## Loop and morph -/

/-- 44_loop_morph.md R152: the easing index lies in [0,256], is 256 exactly at `2^r`, and 0 exactly below
`2^(r-8)`. -/
def Obligations.EasingIndexIsAtMost256 : Prop :=
  ∀ c r : Nat, r ≤ 15 → c ≤ 2 ^ r →
    easeIndex c r = (if r ≥ 8 then c / 2 ^ (r - 8) else c * 2 ^ (8 - r)) ∧
    easeIndex c r ≤ 256 ∧ (easeIndex c r = 256 ↔ c = 2 ^ r) ∧
    (easeIndex c r = 0 ↔ c = 0 ∨ (r > 8 ∧ c < 2 ^ (r - 8)))

/-- 44_loop_morph.md R156, 20_memory.md R63: the pointer advance, with the wrap at 256 when no loop is enabled and at
the loop length otherwise; nothing else changes. -/
def Obligations.PointerAdvancesInsideTheLoop : Prop :=
  ∀ s : State, ∃ p : BitVec 8,
    advancePtr s = { s with eng := { s.eng with loopPointer := p } } ∧
    (s.ctl.loopLength = 0#8 → p.toNat = (s.eng.loopPointer.toNat + 1) % 256) ∧
    (s.ctl.loopLength ≠ 0#8 →
      p.toNat = (let p1 := (s.eng.loopPointer.toNat + 1) % 256
                 if p1 ≥ s.ctl.loopLength.toNat then 0 else p1) ∧
      p.toNat < s.ctl.loopLength.toNat)

/-- 44_loop_morph.md R155, R157: the morph event where the counter is 0 and the dummy read where it is not; and the
counter's step, its underflow reloading `2^morph_rate`. -/
def Obligations.MorphEventCopiesThenOverwrites : Prop :=
  (∀ (P : Params) (pin : AdcPin) (p : Nat) (s : State), p < 256 → s.mem.wf P = true →
    let t := morphStep P pin p s
    (s.eng.morphCounter ≠ 0#16 → t = s) ∧
    (s.eng.morphCounter = 0#16 →
      memRead P .morphbuf p t = memRead P .inbuf p s ∧ memRead P .inbuf p t = adcRead pin s ∧
      ReadsKept P s t (fun M i => (M = .inbuf ∨ M = .morphbuf) ∧ i = p) ∧
      t.ctl = s.ctl ∧ t.seq = s.seq ∧ t.eng = s.eng ∧ t.env = s.env)) ∧
  ∀ s : State, ∃ c : BitVec 16,
    stepMorphCounter s = { s with eng := { s.eng with morphCounter := c } } ∧
    c.toNat = if s.eng.morphCounter.toNat = 0 then 2 ^ s.ctl.morphRate.toNat else s.eng.morphCounter.toNat - 1

/-- 44_loop_morph.md R151, R162, R150: an audio tick with no loop enabled: everything it writes, and its frame. -/
def Obligations.AudioTickWithoutLoop : Prop :=
  ∀ s : State, s.mem.wf Config.params = true → s.ctl.loopLength = 0#8 →
    let P := Config.params
    let x := s.env.pins.adcAudio
    ∃ t : State, exec .dispatchAudio s = .next t ∧
      memRead P .inbuf s.eng.loopPointer.toNat t = x ∧
      memRead P .outbuf s.eng.loopPointer.toNat t = chainOutput P x s ∧
      memRead P .rvb s.eng.rvbWrite.toNat t = chainEcho P x s ∧
      t.eng = { s.eng with
        fstate := chainFilter P x s
        rvbRead := s.eng.rvbRead + 1
        rvbWrite := s.eng.rvbWrite + 1
        dacOut := chainOutput P x s
        loopPointer := s.eng.loopPointer + 1 } ∧
      ReadsKept P s t (AudioWrites s) ∧ t.ctl = s.ctl ∧ t.seq = s.seq ∧ t.env = s.env

/-- 44_loop_morph.md R154, R162: an audio tick with a loop enabled: everything it writes, and its frame. -/
def Obligations.AudioTickWithLoop : Prop :=
  ∀ s : State, s.mem.wf Config.params = true → s.ctl.loopLength ≠ 0#8 →
    s.eng.loopPointer.toNat < s.ctl.loopLength.toNat →
    let P := Config.params
    let b := loopInput P s
    ∃ t : State, exec .dispatchAudio s = .next t ∧
      LoopBuffers P s t s.env.pins.adcAudio (chainOutput P b s) ∧
      memRead P .rvb s.eng.rvbWrite.toNat t = chainEcho P b s ∧
      t.eng = { s.eng with
        fstate := chainFilter P b s
        rvbRead := s.eng.rvbRead + 1
        rvbWrite := s.eng.rvbWrite + 1
        dacOut := chainOutput P b s
        loopPointer := loopPointerAfter s
        morphCounter := morphCounterAfter s } ∧
      ReadsKept P s t (AudioWrites s) ∧ t.ctl = s.ctl ∧ t.seq = s.seq ∧ t.env = s.env

/-- 44_loop_morph.md R158, R161 (90_conflicts.md C4): the morph cycle closes after `(2^r + 1) * L` loop ticks, in Audio
and in CV mode. On successive passes the counter takes the values `2^r` down to 0. After `2^r * L` ticks the counter has just become 0 and nothing has been replaced; after
`(2^r + 1) * L` every position of MORPHBUF holds what INBUF held, every position of INBUF the sample drawn at its morph
event, and the counter is `2^r` again. -/
def Obligations.MorphCycleCloses : Prop :=
  ∀ (P : Params) (x : Nat → Draws) (s : State) (pin : AdcPin) (tick : State → State),
    (pin = .audio ∧ tick = audioTick P) ∨ (pin = .cv ∧ tick = cvTick P) →
    s.mem.wf P = true → s.ctl.loopLength ≠ 0#8 → s.eng.loopPointer = 0#8 →
    s.eng.morphCounter.toNat = 2 ^ s.ctl.morphRate.toNat →
    let L := s.ctl.loopLength.toNat
    let c := 2 ^ s.ctl.morphRate.toNat
    let u := runTicks tick x (c * L) s
    let t := runTicks tick x ((c + 1) * L) s
    (∀ k j, k ≤ c → j < L → (runTicks tick x (k * L + j) s).eng.morphCounter.toNat = c - k ∧
      (runTicks tick x (k * L + j) s).eng.loopPointer.toNat = j) ∧
    (u.eng.morphCounter = 0#16 ∧ u.eng.loopPointer = 0#8 ∧
      ∀ i, memRead P .inbuf i u = memRead P .inbuf i s ∧ memRead P .morphbuf i u = memRead P .morphbuf i s) ∧
    t.eng.morphCounter.toNat = c ∧ t.eng.loopPointer = 0#8 ∧
    ∀ p, p < L →
      memRead P .morphbuf p t = memRead P .inbuf p s ∧
      memRead P .inbuf p t = adcRead pin (setPins (x (c * L + p)) s)

/-! ## CV quantizer -/

/-- 45_cv_quantizer.md R172: the glide: priming from SENTINEL, else the floored weighted mean; the result of a domain
value is a domain value, and never SENTINEL. -/
def Obligations.GlideIsTheFlooredMean : Prop :=
  ∀ (P : Params) (v : Sample) (s : State), Primed P s.eng.glideRolling → ∃ g : BitVec 16,
    glideStep P v s = { s with eng := { s.eng with glideRolling := g } } ∧
    g.toNat = (if s.eng.glideRolling = P.sentinel then v.toNat
      else (s.eng.glideRolling.toNat * s.ctl.glide.toNat + v.toNat * 16) / (s.ctl.glide.toNat + 16)) ∧
    g.toNat ≤ 1023 ∧ g ≠ P.sentinel

/-- 45_cv_quantizer.md R177: each of the twelve bits of the probability map is the signed comparison of the rule, with
the jitter draw any value below JITTER_RANGE; nothing but the map changes. -/
def Obligations.ProbabilityMapIsTheSignedComparison : Prop :=
  ∀ (P : Params) (s : State),
    buildProbMap P s = { s with eng := { s.eng with probMap := (buildProbMap P s).eng.probMap } } ∧
    ∀ i : Fin 12,
      jitterDraw P i s < P.jitterRange ∧
      ((buildProbMap P s).eng.probMap.getLsbD i = true ↔
        ((P.scaleW s.ctl.scaleIndex.toNat i).toNat : Int) + jitterDraw P i s - (P.jitterRange / 2 : Nat) >
          1023 - (s.ctl.scaleCrush.toNat : Int))

/-- 45_cv_quantizer.md R178: "The result is the largest permitted semitone not above the start, or 0 when there is
none". -/
def Obligations.WalkDownFindsTheLargestPermitted : Prop :=
  ∀ (map : BitVec 12) (semi : Nat), semi ≤ 11 →
    let r := walkDown map semi
    r ≤ semi ∧ (r ≠ 0 → map.getLsbD r = true) ∧ ∀ j, r < j → j ≤ semi → map.getLsbD j = false

/-- 45_cv_quantizer.md R182, R173, R179: the quantizer's output is its note's value, the note is at most 120, only
`glide_rolling` and `prob_map` change. -/
def Obligations.QuantizerOutputIsTheClampedNote : Prop :=
  ∀ (P : Params) (v : Sample) (s : State),
    (quantize P v s).2 = { s with eng := { s.eng with
      glideRolling := glideValue P s.eng.glideRolling s.ctl.glide v
      probMap := probMap P s } } ∧
    quantizerNote P v s ≤ 120 ∧
    (quantize P v s).1.toNat = min 1023 (quantizerNote P v s * 1024 / 120)

/-- 40_tick_dispatcher.md R99 with `gate_en = 0`: the coarse divider counts down and, at its expiry, reloads and runs
the CV engine once. -/
def Obligations.FreeCvDispatchDividesThenRuns : Prop :=
  ∀ s : State, s.mem.wf Config.params = true → 1 ≤ s.seq.cvDivCnt →
    (2 ≤ s.seq.cvDivCnt → exec .dispatchCvFree s =
      .next { s with seq := { s.seq with cvDivCnt := s.seq.cvDivCnt - 1 } }) ∧
    (s.seq.cvDivCnt = 1 → ∃ t : State, exec .dispatchCvFree s = .next t ∧
      t.seq = { s.seq with cvDivCnt := Config.params.cvDiv } ∧ CvEngineRun Config.params s t)

/-- 40_tick_dispatcher.md R99 with `gate_en = 1`: the divider keeps counting while paused; at its expiry a paused
engine does not run, an un-paused one runs once and is paused again. -/
def Obligations.GatedCvDispatchRunsOnceThenPauses : Prop :=
  ∀ s : State, s.mem.wf Config.params = true → 1 ≤ s.seq.cvDivCnt →
    (2 ≤ s.seq.cvDivCnt → exec .dispatchCvGated s =
      .next { s with seq := { s.seq with cvDivCnt := s.seq.cvDivCnt - 1 } }) ∧
    (s.seq.cvDivCnt = 1 → s.seq.paused = true → exec .dispatchCvGated s =
      .next { s with seq := { s.seq with cvDivCnt := Config.params.cvDiv } }) ∧
    (s.seq.cvDivCnt = 1 → s.seq.paused = false → ∃ t : State, exec .dispatchCvGated s = .next t ∧
      t.seq = { s.seq with cvDivCnt := Config.params.cvDiv, paused := true } ∧ CvEngineRun Config.params s t)

/-! ## Idle and calibration -/

/-- 40_tick_dispatcher.md R97: an Idle tick drives 512 and writes nothing else. -/
def Obligations.IdleTickDrivesTheCenter : Prop :=
  ∀ s : State, exec .dispatchIdle s = .next { s with eng := { s.eng with dacOut := 512#10 } }

/-- 46_calibrate.md R190, R191, R192, R193: a calibration tick echoes the CV input into both buffers, updates the
average, drives full scale, advances the pointer, and writes nothing else. -/
def Obligations.CalibrationTickEchoesAndDrivesFullScale : Prop :=
  ∀ s : State, s.mem.wf Config.params = true → Primed Config.params s.eng.calAvg →
    let raw := s.env.pins.adcCv
    ∃ t : State, exec .dispatchCalibrate s = .next t ∧
      memRead Config.params .inbuf s.eng.loopPointer.toNat t = raw ∧
      memRead Config.params .outbuf s.eng.loopPointer.toNat t = raw ∧
      ReadsKept Config.params s t (fun M i => (M = .inbuf ∨ M = .outbuf) ∧ i = s.eng.loopPointer.toNat) ∧
      t.eng = { s.eng with
        calAvg := t.eng.calAvg
        dacOut := 1023#10
        loopPointer := (advancePtr s).eng.loopPointer } ∧
      t.eng.calAvg.toNat = (if s.eng.calAvg = Config.params.sentinel then raw.toNat else (s.eng.calAvg.toNat + raw.toNat) / 2) ∧
      t.eng.calAvg.toNat ≤ 1023 ∧ t.eng.calAvg ≠ Config.params.sentinel ∧
      t.ctl = s.ctl ∧ t.seq = s.seq ∧ t.env = s.env
end

