-- ==== Sys2Proof/Laws/Memory.lean ====
section
/-! SUPPORT. Memory.lean: the laws of the memories: read after write, and that every write keeps the canonical form. -/

namespace Sys2Proof.Machine

theorem readCells_of_lt (dflt : Nat → Sample) (cap : Nat) :
    ∀ (l : List Cell) (lo i : Nat), cellsWf dflt cap lo l = true → i < lo → readCells dflt l i = dflt i
  | [], _, _, _, _ => rfl
  | (j, v) :: l, lo, i, h, hi => by
    simp only [cellsWf, Bool.and_eq_true, decide_eq_true_eq] at h
    obtain ⟨⟨⟨h1, _⟩, _⟩, h4⟩ := h
    have hne : j ≠ i := by omega
    simp only [readCells, if_neg hne]
    exact readCells_of_lt dflt cap l (j + 1) i h4 (by omega)

theorem readCells_writeCells_other (dflt : Nat → Sample) {i k : Nat} (hk : k ≠ i) (v : Sample) :
    ∀ l : List Cell, readCells dflt (writeCells dflt l i v) k = readCells dflt l k
  | [] => by
    simp only [writeCells]
    split <;> simp [readCells, Ne.symm hk]
  | (j, u) :: l => by
    simp only [writeCells]
    split
    · split <;> simp [readCells, Ne.symm hk]
    · split
      · next h => subst h; split <;> simp [readCells, Ne.symm hk]
      · simp [readCells, readCells_writeCells_other dflt hk v l]

theorem readCells_writeCells_same (dflt : Nat → Sample) (cap : Nat) (i : Nat) (v : Sample) :
    ∀ (l : List Cell) (lo : Nat), cellsWf dflt cap lo l = true → readCells dflt (writeCells dflt l i v) i = v
  | [], _, _ => by
    simp only [writeCells]
    split
    · next h => simp [readCells, h]
    · simp [readCells]
  | (j, u) :: l, lo, h => by
    have h' := h
    simp only [cellsWf, Bool.and_eq_true, decide_eq_true_eq] at h'
    obtain ⟨_, h4⟩ := h'
    simp only [writeCells]
    split
    · next hij =>
      split
      · next hv =>
        have hne : j ≠ i := by omega
        simp only [readCells, if_neg hne]
        rw [readCells_of_lt dflt cap l (j + 1) i h4 (by omega), hv]
      · simp [readCells]
    · split
      · next hij =>
        split
        · next hv =>
          rw [readCells_of_lt dflt cap l (j + 1) i h4 (by omega), hv]
        · simp [readCells]
      · next hne =>
        have hne' : j ≠ i := fun e => hne e.symm
        simp only [readCells, if_neg hne']
        exact readCells_writeCells_same dflt cap i v l (j + 1) h4

theorem cellsWf_mono (dflt : Nat → Sample) (cap : Nat) {lo lo' : Nat} (h : lo' ≤ lo) :
    ∀ l : List Cell, cellsWf dflt cap lo l = true → cellsWf dflt cap lo' l = true
  | [], _ => rfl
  | (j, v) :: l, hw => by
    simp only [cellsWf, Bool.and_eq_true, decide_eq_true_eq] at hw ⊢
    exact ⟨⟨⟨by omega, hw.1.1.2⟩, hw.1.2⟩, hw.2⟩

theorem cellsWf_writeCells (dflt : Nat → Sample) (cap : Nat) {i : Nat} (hi : i < cap) (v : Sample) :
    ∀ (l : List Cell) (lo : Nat), lo ≤ i → cellsWf dflt cap lo l = true →
      cellsWf dflt cap lo (writeCells dflt l i v) = true
  | [], lo, hlo, _ => by
    simp only [writeCells]
    split
    · rfl
    · next h => simp [cellsWf, hlo, hi, h]
  | (j, u) :: l, lo, hlo, hw => by
    have hw' := hw
    simp only [cellsWf, Bool.and_eq_true, decide_eq_true_eq] at hw'
    obtain ⟨⟨⟨h1, h2⟩, h3⟩, h4⟩ := hw'
    simp only [writeCells]
    split
    · next hij =>
      split
      · exact hw
      · next hv =>
        simp only [cellsWf, Bool.and_eq_true, decide_eq_true_eq]
        exact ⟨⟨⟨hlo, hi⟩, hv⟩, ⟨⟨by omega, h2⟩, h3⟩, h4⟩
    · split
      · next hij =>
        subst hij
        split
        · exact cellsWf_mono dflt cap (by omega) l h4
        · next hv =>
          simp only [cellsWf, Bool.and_eq_true, decide_eq_true_eq]
          exact ⟨⟨⟨h1, h2⟩, hv⟩, h4⟩
      · next hnlt hne =>
        simp only [cellsWf, Bool.and_eq_true, decide_eq_true_eq]
        exact ⟨⟨⟨h1, h2⟩, h3⟩, cellsWf_writeCells dflt cap hi v l (j + 1) (by omega) h4⟩

@[simp] theorem cells_setCells_same (m : Memory) (M : Ram) (l : List Cell) : cells (setCells m M l) M = l := by
  cases M <;> rfl

theorem cells_setCells_other (m : Memory) {M N : Ram} (h : N ≠ M) (l : List Cell) :
    cells (setCells m M l) N = cells m N := by
  cases M <;> cases N <;> first | rfl | exact absurd rfl h

/-- The canonical form of all memories is that of each. -/
theorem memory_wf_iff (P : Params) (m : Memory) : m.wf P = true ↔ ∀ M : Ram, ramWf P M m = true := by
  simp only [Memory.wf, Bool.and_eq_true]
  constructor
  · rintro ⟨⟨⟨⟨h1, h2⟩, h3⟩, h4⟩, h5⟩ M
    cases M <;> assumption
  · intro h
    exact ⟨⟨⟨⟨h .inbuf, h .outbuf⟩, h .morphbuf⟩, h .rvb⟩, h .bittab⟩

/-- A write leaves every other entry and every other memory alone. -/
theorem memRead_memWrite_other (P : Params) {M N : Ram} {i k : Nat} (h : N ≠ M ∨ k ≠ i) (v : Sample) (s : State) :
    memRead P N k (memWrite P M i v s) = memRead P N k s := by
  by_cases hN : N = M
  · subst hN
    have hk : k ≠ i := h.resolve_left (fun h => h rfl)
    simp only [memRead, memWrite, cells_setCells_same]
    exact readCells_writeCells_other _ hk v _
  · simp only [memRead, memWrite, cells_setCells_other _ hN]

/-- A read after a write gives the value written. -/
theorem memRead_memWrite_same (P : Params) (M : Ram) (i : Nat) (v : Sample) (s : State)
    (hw : s.mem.wf P = true) : memRead P M i (memWrite P M i v s) = v := by
  simp only [memRead, memWrite, cells_setCells_same]
  exact readCells_writeCells_same _ (capacity M) i v _ 0 ((memory_wf_iff P _).1 hw M)

/-- Every write within a memory keeps the canonical form of all memories. -/
theorem memWrite_wf (P : Params) {M : Ram} {i : Nat} (hi : i < capacity M) (v : Sample) (s : State)
    (hw : s.mem.wf P = true) : (memWrite P M i v s).mem.wf P = true := by
  rw [memory_wf_iff] at hw ⊢
  intro N
  by_cases hN : N = M
  · subst hN
    simp only [ramWf, memWrite, cells_setCells_same]
    exact cellsWf_writeCells _ _ hi v _ 0 (Nat.zero_le _) (hw N)
  · simp only [ramWf, memWrite, cells_setCells_other _ hN]
    exact hw N

/-- Memory after reset is in canonical form. -/
theorem reset_memory_wf (P : Params) : Memory.reset.wf P = true := rfl

end Sys2Proof.Machine
end

