-- ==== Sys2Proof/Laws/State.lean ====
section
/-! SUPPORT. State.lean: what each named update does to each field of the state. -/

namespace Sys2Proof.Machine

@[simp] theorem setDac_ctl (y : Sample) (s : State) : (setDac y s).ctl = s.ctl := rfl
@[simp] theorem setDac_seq (y : Sample) (s : State) : (setDac y s).seq = s.seq := rfl
@[simp] theorem setDac_eng (y : Sample) (s : State) :
    (setDac y s).eng = { s.eng with dacOut := y } := rfl
@[simp] theorem setDac_mem (y : Sample) (s : State) : (setDac y s).mem = s.mem := rfl
@[simp] theorem setDac_env (y : Sample) (s : State) : (setDac y s).env = s.env := rfl

@[simp] theorem memWrite_ctl (P : Params) (M : Ram) (i : Nat) (v : Sample) (s : State) : (memWrite P M i v s).ctl = s.ctl := rfl
@[simp] theorem memWrite_seq (P : Params) (M : Ram) (i : Nat) (v : Sample) (s : State) : (memWrite P M i v s).seq = s.seq := rfl
@[simp] theorem memWrite_eng (P : Params) (M : Ram) (i : Nat) (v : Sample) (s : State) : (memWrite P M i v s).eng = s.eng := rfl
@[simp] theorem memWrite_mem (P : Params) (M : Ram) (i : Nat) (v : Sample) (s : State) :
    (memWrite P M i v s).mem = setCells s.mem M (writeCells (unlisted P M) (cells s.mem M) i v) := rfl
@[simp] theorem memWrite_env (P : Params) (M : Ram) (i : Nat) (v : Sample) (s : State) : (memWrite P M i v s).env = s.env := rfl

@[simp] theorem acceptOverflow_ctl (s : State) : (acceptOverflow s).ctl = s.ctl := rfl
@[simp] theorem acceptOverflow_seq (s : State) :
    (acceptOverflow s).seq = { s.seq with busy := true } := rfl
@[simp] theorem acceptOverflow_eng (s : State) : (acceptOverflow s).eng = s.eng := rfl
@[simp] theorem acceptOverflow_mem (s : State) : (acceptOverflow s).mem = s.mem := rfl
@[simp] theorem acceptOverflow_env (s : State) : (acceptOverflow s).env = s.env := rfl

@[simp] theorem finishTick_ctl (us : Nat) (s : State) : (finishTick us s).ctl = s.ctl := rfl
@[simp] theorem finishTick_seq (us : Nat) (s : State) :
    (finishTick us s).seq = { s.seq with framePeriod := BitVec.ofNat 16 (min us 65535), busy := false } := rfl
@[simp] theorem finishTick_eng (us : Nat) (s : State) : (finishTick us s).eng = s.eng := rfl
@[simp] theorem finishTick_mem (us : Nat) (s : State) : (finishTick us s).mem = s.mem := rfl
@[simp] theorem finishTick_env (us : Nat) (s : State) : (finishTick us s).env = s.env := rfl

@[simp] theorem pollTrigger_ctl (s : State) : (pollTrigger s).ctl = s.ctl := rfl
@[simp] theorem pollTrigger_seq (s : State) :
    (pollTrigger s).seq = { s.seq with
      paused := if risingEdge s.seq.trigPrev (trigRead s) then false else s.seq.paused
      trigPrev := trigRead s } := rfl
@[simp] theorem pollTrigger_eng (s : State) : (pollTrigger s).eng = s.eng := rfl
@[simp] theorem pollTrigger_mem (s : State) : (pollTrigger s).mem = s.mem := rfl
@[simp] theorem pollTrigger_env (s : State) : (pollTrigger s).env = s.env := rfl

@[simp] theorem startRebuild_ctl (d : BitVec 10) (s : State) :
    (startRebuild d s).ctl = { s.ctl with crush := d, scaleCrush := d } := rfl
@[simp] theorem startRebuild_seq (d : BitVec 10) (s : State) : (startRebuild d s).seq = s.seq := rfl
@[simp] theorem startRebuild_eng (d : BitVec 10) (s : State) :
    (startRebuild d s).eng = { s.eng with rebuildIdx := 0 } := rfl
@[simp] theorem startRebuild_mem (d : BitVec 10) (s : State) : (startRebuild d s).mem = s.mem := rfl
@[simp] theorem startRebuild_env (d : BitVec 10) (s : State) : (startRebuild d s).env = s.env := rfl

@[simp] theorem rebuildStep_ctl (P : Params) (s : State) : (rebuildStep P s).ctl = s.ctl := rfl
@[simp] theorem rebuildStep_seq (P : Params) (s : State) : (rebuildStep P s).seq = s.seq := rfl
@[simp] theorem rebuildStep_eng (P : Params) (s : State) :
    (rebuildStep P s).eng = { s.eng with rebuildIdx := s.eng.rebuildIdx + 1 } := rfl
@[simp] theorem rebuildStep_mem (P : Params) (s : State) :
    (rebuildStep P s).mem = (memWrite P .bittab s.eng.rebuildIdx.toNat
      (P.stair s.ctl.crush (BitVec.ofNat 10 s.eng.rebuildIdx.toNat)) s).mem := rfl
@[simp] theorem rebuildStep_env (P : Params) (s : State) : (rebuildStep P s).env = s.env := rfl

@[simp] theorem setWet_ctl (d : BitVec 8) (s : State) :
    (setWet d s).ctl = { s.ctl with rvbWet := d } := rfl
@[simp] theorem setWet_seq (d : BitVec 8) (s : State) : (setWet d s).seq = s.seq := rfl
@[simp] theorem setWet_eng (d : BitVec 8) (s : State) : (setWet d s).eng = s.eng := rfl
@[simp] theorem setWet_mem (d : BitVec 8) (s : State) : (setWet d s).mem = s.mem := rfl
@[simp] theorem setWet_env (d : BitVec 8) (s : State) : (setWet d s).env = s.env := rfl

@[simp] theorem advanceCursors_ctl (s : State) : (advanceCursors s).ctl = s.ctl := rfl
@[simp] theorem advanceCursors_seq (s : State) : (advanceCursors s).seq = s.seq := rfl
@[simp] theorem advanceCursors_eng (s : State) :
    (advanceCursors s).eng = { s.eng with rvbRead := s.eng.rvbRead + 1, rvbWrite := s.eng.rvbWrite + 1 } := rfl
@[simp] theorem advanceCursors_mem (s : State) : (advanceCursors s).mem = s.mem := rfl
@[simp] theorem advanceCursors_env (s : State) : (advanceCursors s).env = s.env := rfl

@[simp] theorem advancePtr_ctl (s : State) : (advancePtr s).ctl = s.ctl := rfl
@[simp] theorem advancePtr_seq (s : State) : (advancePtr s).seq = s.seq := rfl
@[simp] theorem advancePtr_eng (s : State) :
    (advancePtr s).eng = { s.eng with loopPointer := nextPointer s.ctl.loopLength s.eng.loopPointer } := rfl
@[simp] theorem advancePtr_mem (s : State) : (advancePtr s).mem = s.mem := rfl
@[simp] theorem advancePtr_env (s : State) : (advancePtr s).env = s.env := rfl

@[simp] theorem stepMorphCounter_ctl (s : State) : (stepMorphCounter s).ctl = s.ctl := rfl
@[simp] theorem stepMorphCounter_seq (s : State) : (stepMorphCounter s).seq = s.seq := rfl
@[simp] theorem stepMorphCounter_eng (s : State) :
    (stepMorphCounter s).eng = { s.eng with morphCounter :=
      if s.eng.morphCounter = 0 then morphReload s.ctl.morphRate else s.eng.morphCounter - 1 } := rfl
@[simp] theorem stepMorphCounter_mem (s : State) : (stepMorphCounter s).mem = s.mem := rfl
@[simp] theorem stepMorphCounter_env (s : State) : (stepMorphCounter s).env = s.env := rfl

@[simp] theorem setLoopLength_ctl (d : BitVec 8) (s : State) :
    (setLoopLength d s).ctl = { s.ctl with loopLength := d } := rfl
@[simp] theorem setLoopLength_seq (d : BitVec 8) (s : State) : (setLoopLength d s).seq = s.seq := rfl
@[simp] theorem setLoopLength_eng (d : BitVec 8) (s : State) :
    (setLoopLength d s).eng = { s.eng with loopPointer :=
      if d ≠ 0 ∧ d ≤ s.eng.loopPointer then 0 else s.eng.loopPointer } := rfl
@[simp] theorem setLoopLength_mem (d : BitVec 8) (s : State) : (setLoopLength d s).mem = s.mem := rfl
@[simp] theorem setLoopLength_env (d : BitVec 8) (s : State) : (setLoopLength d s).env = s.env := rfl

@[simp] theorem glideStep_ctl (P : Params) (v : Sample) (s : State) : (glideStep P v s).ctl = s.ctl := rfl
@[simp] theorem glideStep_seq (P : Params) (v : Sample) (s : State) : (glideStep P v s).seq = s.seq := rfl
@[simp] theorem glideStep_eng (P : Params) (v : Sample) (s : State) :
    (glideStep P v s).eng = { s.eng with glideRolling := glideValue P s.eng.glideRolling s.ctl.glide v } := rfl
@[simp] theorem glideStep_mem (P : Params) (v : Sample) (s : State) : (glideStep P v s).mem = s.mem := rfl
@[simp] theorem glideStep_env (P : Params) (v : Sample) (s : State) : (glideStep P v s).env = s.env := rfl

@[simp] theorem buildProbMap_ctl (P : Params) (s : State) : (buildProbMap P s).ctl = s.ctl := rfl
@[simp] theorem buildProbMap_seq (P : Params) (s : State) : (buildProbMap P s).seq = s.seq := rfl
@[simp] theorem buildProbMap_eng (P : Params) (s : State) :
    (buildProbMap P s).eng = { s.eng with probMap := probMap P s } := rfl
@[simp] theorem buildProbMap_mem (P : Params) (s : State) : (buildProbMap P s).mem = s.mem := rfl
@[simp] theorem buildProbMap_env (P : Params) (s : State) : (buildProbMap P s).env = s.env := rfl

@[simp] theorem calAverage_ctl (P : Params) (raw : Sample) (s : State) : (calAverage P raw s).ctl = s.ctl := rfl
@[simp] theorem calAverage_seq (P : Params) (raw : Sample) (s : State) : (calAverage P raw s).seq = s.seq := rfl
@[simp] theorem calAverage_eng (P : Params) (raw : Sample) (s : State) :
    (calAverage P raw s).eng = { s.eng with calAvg := calValue P s.eng.calAvg raw } := rfl
@[simp] theorem calAverage_mem (P : Params) (raw : Sample) (s : State) : (calAverage P raw s).mem = s.mem := rfl
@[simp] theorem calAverage_env (P : Params) (raw : Sample) (s : State) : (calAverage P raw s).env = s.env := rfl

@[simp] theorem setMode_ctl (m : Mode) (gate : Bool) (s : State) :
    (setMode m gate s).ctl = { s.ctl with mode := m, gateEn := gate } := rfl
@[simp] theorem setMode_seq (m : Mode) (gate : Bool) (s : State) :
    (setMode m gate s).seq = { s.seq with paused := true } := rfl
@[simp] theorem setMode_eng (m : Mode) (gate : Bool) (s : State) :
    (setMode m gate s).eng = { s.eng with fstate :=
      if m = .idle then FilterState.centered else s.eng.fstate } := rfl
@[simp] theorem setMode_mem (m : Mode) (gate : Bool) (s : State) : (setMode m gate s).mem = s.mem := rfl
@[simp] theorem setMode_env (m : Mode) (gate : Bool) (s : State) : (setMode m gate s).env = s.env := rfl

@[simp] theorem setRate_ctl (P : Params) (rate : BitVec 10) (octdiv : BitVec 3) (s : State) :
    (setRate P rate octdiv s).ctl = { s.ctl with
      rateCtl := rate, timerPeriod := P.periodTable rate.toNat, isrPeriod := octaveDivisor octdiv } := rfl
@[simp] theorem setRate_seq (P : Params) (rate : BitVec 10) (octdiv : BitVec 3) (s : State) :
    (setRate P rate octdiv s).seq = { s.seq with octCnt := octaveDivisor octdiv, timerCnt := 0 } := rfl
@[simp] theorem setRate_eng (P : Params) (rate : BitVec 10) (octdiv : BitVec 3) (s : State) : (setRate P rate octdiv s).eng = s.eng := rfl
@[simp] theorem setRate_mem (P : Params) (rate : BitVec 10) (octdiv : BitVec 3) (s : State) : (setRate P rate octdiv s).mem = s.mem := rfl
@[simp] theorem setRate_env (P : Params) (rate : BitVec 10) (octdiv : BitVec 3) (s : State) : (setRate P rate octdiv s).env = s.env := rfl

@[simp] theorem readPort_ctl (P : Params) (a : BitVec 12) (s : State) : (readPort P a s).ctl = s.ctl := rfl
@[simp] theorem readPort_seq (P : Params) (a : BitVec 12) (s : State) : (readPort P a s).seq = s.seq := rfl
@[simp] theorem readPort_eng (P : Params) (a : BitVec 12) (s : State) : (readPort P a s).eng = s.eng := rfl
@[simp] theorem readPort_mem (P : Params) (a : BitVec 12) (s : State) : (readPort P a s).mem = s.mem := rfl
@[simp] theorem readPort_env (P : Params) (a : BitVec 12) (s : State) :
    (readPort P a s).env = { s.env with rdData := readMap P a s } := rfl

@[simp] theorem stepOctave_ctl (s : State) : (stepOctave s).ctl = s.ctl := rfl
@[simp] theorem stepOctave_seq (s : State) :
    (stepOctave s).seq = { s.seq with octCnt :=
      if s.seq.octCnt - 1 = 0 then s.ctl.isrPeriod else s.seq.octCnt - 1 } := rfl
@[simp] theorem stepOctave_eng (s : State) : (stepOctave s).eng = s.eng := rfl
@[simp] theorem stepOctave_mem (s : State) : (stepOctave s).mem = s.mem := rfl
@[simp] theorem stepOctave_env (s : State) : (stepOctave s).env = s.env := rfl

@[simp] theorem countTimer_ctl (s : State) : (countTimer s).ctl = s.ctl := rfl
@[simp] theorem countTimer_seq (s : State) :
    (countTimer s).seq = { s.seq with timerCnt := if timerExpires s then 0 else s.seq.timerCnt + 1 } := rfl
@[simp] theorem countTimer_eng (s : State) : (countTimer s).eng = s.eng := rfl
@[simp] theorem countTimer_mem (s : State) : (countTimer s).mem = s.mem := rfl
@[simp] theorem countTimer_env (s : State) : (countTimer s).env = s.env := rfl

@[simp] theorem setPins_ctl (d : Draws) (s : State) : (setPins d s).ctl = s.ctl := rfl
@[simp] theorem setPins_seq (d : Draws) (s : State) : (setPins d s).seq = s.seq := rfl
@[simp] theorem setPins_eng (d : Draws) (s : State) : (setPins d s).eng = s.eng := rfl
@[simp] theorem setPins_mem (d : Draws) (s : State) : (setPins d s).mem = s.mem := rfl
@[simp] theorem setPins_env (d : Draws) (s : State) :
    (setPins d s).env = { s.env with pins := d } := rfl

@[simp] theorem setCmdWord_ctl (w : Option CommandWord) (s : State) : (setCmdWord w s).ctl = s.ctl := rfl
@[simp] theorem setCmdWord_seq (w : Option CommandWord) (s : State) : (setCmdWord w s).seq = s.seq := rfl
@[simp] theorem setCmdWord_eng (w : Option CommandWord) (s : State) : (setCmdWord w s).eng = s.eng := rfl
@[simp] theorem setCmdWord_mem (w : Option CommandWord) (s : State) : (setCmdWord w s).mem = s.mem := rfl
@[simp] theorem setCmdWord_env (w : Option CommandWord) (s : State) :
    (setCmdWord w s).env = { s.env with cmdWord := w } := rfl

@[simp] theorem scheduleFirst_ctl (e : Event) (s : State) : (scheduleFirst e s).ctl = s.ctl := rfl
@[simp] theorem scheduleFirst_seq (e : Event) (s : State) : (scheduleFirst e s).seq = s.seq := rfl
@[simp] theorem scheduleFirst_eng (e : Event) (s : State) : (scheduleFirst e s).eng = s.eng := rfl
@[simp] theorem scheduleFirst_mem (e : Event) (s : State) : (scheduleFirst e s).mem = s.mem := rfl
@[simp] theorem scheduleFirst_env (e : Event) (s : State) :
    (scheduleFirst e s).env = { s.env with queue := e :: s.env.queue } := rfl

/-! The schedule's fields apart, taking the next event changes nothing. -/

@[simp] theorem consumeEvent_ctl (s : State) : (consumeEvent s).ctl = s.ctl := by
  unfold consumeEvent; split <;> rfl
@[simp] theorem consumeEvent_seq (s : State) : (consumeEvent s).seq = s.seq := by
  unfold consumeEvent; split <;> rfl
@[simp] theorem consumeEvent_eng (s : State) : (consumeEvent s).eng = s.eng := by
  unfold consumeEvent; split <;> rfl
@[simp] theorem consumeEvent_mem (s : State) : (consumeEvent s).mem = s.mem := by
  unfold consumeEvent; split <;> rfl
@[simp] theorem consumeEvent_pins (s : State) : (consumeEvent s).env.pins = s.env.pins := by
  unfold consumeEvent; split <;> rfl
@[simp] theorem consumeEvent_cmdWord (s : State) : (consumeEvent s).env.cmdWord = s.env.cmdWord := by
  unfold consumeEvent; split <;> rfl
@[simp] theorem consumeEvent_rdData (s : State) : (consumeEvent s).env.rdData = s.env.rdData := by
  unfold consumeEvent; split <;> rfl

@[simp] theorem consumeEvent_scheduleFirst (e : Event) (s : State) : consumeEvent (scheduleFirst e s) = s := rfl
@[simp] theorem nextEvent_scheduleFirst (e : Event) (s : State) : nextEvent (scheduleFirst e s) = e := rfl

@[simp] theorem resetStep_ctl (P : Params) (s : State) : (resetStep P s).ctl = (State.resetWith P).ctl := rfl
@[simp] theorem resetStep_seq (P : Params) (s : State) : (resetStep P s).seq = (State.resetWith P).seq := rfl
@[simp] theorem resetStep_eng (P : Params) (s : State) : (resetStep P s).eng = (State.resetWith P).eng := rfl
@[simp] theorem resetStep_mem (P : Params) (s : State) : (resetStep P s).mem = (State.resetWith P).mem := rfl

@[simp] theorem overflowPoll_ctl (s : State) : (overflowPoll s).ctl = s.ctl := by
  unfold overflowPoll; split <;> rfl
@[simp] theorem overflowPoll_eng (s : State) : (overflowPoll s).eng = s.eng := by
  unfold overflowPoll; split <;> rfl
@[simp] theorem overflowPoll_mem (s : State) : (overflowPoll s).mem = s.mem := by
  unfold overflowPoll; split <;> rfl
@[simp] theorem overflowPoll_env (s : State) : (overflowPoll s).env = s.env := by
  unfold overflowPoll; split <;> rfl

/-- The poll writes only `trig_prev` and `paused`. -/
theorem overflowPoll_seq (s : State) : (overflowPoll s).seq = { s.seq with
    paused := (overflowPoll s).seq.paused, trigPrev := (overflowPoll s).seq.trigPrev } := by
  unfold overflowPoll; split <;> rfl

end Sys2Proof.Machine
end

