-- ==== Sys2Proof/Laws/Engines.lean ====
section
/-! SUPPORT. Engines.lean: what each engine function can change, once per function. -/

namespace Sys2Proof.Machine

/-! ## Memory ids -/

theorem memRead_congr (P : Params) (M : Ram) (i : Nat) {s t : State} (h : s.mem = t.mem) :
    memRead P M i s = memRead P M i t := by
  simp only [memRead, h]

/-! ## The audio chain -/

@[simp] theorem filter_ctl (P : Params) (q : Sample) (s : State) : (filter P q s).2.ctl = s.ctl := rfl
@[simp] theorem filter_seq (P : Params) (q : Sample) (s : State) : (filter P q s).2.seq = s.seq := rfl
@[simp] theorem filter_mem (P : Params) (q : Sample) (s : State) : (filter P q s).2.mem = s.mem := rfl
@[simp] theorem filter_env (P : Params) (q : Sample) (s : State) : (filter P q s).2.env = s.env := rfl
@[simp] theorem filter_eng (P : Params) (q : Sample) (s : State) :
    (filter P q s).2.eng =
      { s.eng with fstate := filterStages P q s.ctl.resonance s.ctl.alpha s.eng.fstate } := rfl
@[simp] theorem filter_result (P : Params) (q : Sample) (s : State) :
    (filter P q s).1 = (filterStages P q s.ctl.resonance s.ctl.alpha s.eng.fstate).f4 := rfl

/-- The clamp of `recenter` never binds on a 10-bit entry (43_reverb.md R136). -/
@[simp] theorem recenter_eq (r : Sample) : recenter r = r := by
  apply BitVec.eq_of_toNat_eq
  have h : r.toNat < 1024 := r.isLt
  simp only [recenter, clamp, BitVec.toNat_ofNat]
  omega

@[simp] theorem reverb_ctl (P : Params) (f : Sample) (s : State) : (reverb P f s).2.ctl = s.ctl := rfl
@[simp] theorem reverb_seq (P : Params) (f : Sample) (s : State) : (reverb P f s).2.seq = s.seq := rfl
@[simp] theorem reverb_env (P : Params) (f : Sample) (s : State) : (reverb P f s).2.env = s.env := rfl
@[simp] theorem reverb_eng (P : Params) (f : Sample) (s : State) :
    (reverb P f s).2.eng =
      { s.eng with rvbRead := s.eng.rvbRead + 1, rvbWrite := s.eng.rvbWrite + 1 } := rfl
theorem reverb_mem (P : Params) (f : Sample) (s : State) :
    (reverb P f s).2.mem = (memWrite P .rvb s.eng.rvbWrite.toNat
      (blend f (memRead P .rvb s.eng.rvbRead.toNat s) s.ctl.rvbFeedback) s).mem := by
  simp [reverb]
theorem reverb_result (P : Params) (f : Sample) (s : State) :
    (reverb P f s).1 = blend f (memRead P .rvb s.eng.rvbRead.toNat s) s.ctl.rvbWet := by
  simp [reverb]

theorem chain_eq (P : Params) (v : Sample) (s : State) :
    chain P v s = reverb P (filter P (bitReduce P v s) s).1 (filter P (bitReduce P v s) s).2 := rfl

@[simp] theorem chain_ctl (P : Params) (v : Sample) (s : State) : (chain P v s).2.ctl = s.ctl := rfl
@[simp] theorem chain_seq (P : Params) (v : Sample) (s : State) : (chain P v s).2.seq = s.seq := rfl
@[simp] theorem chain_env (P : Params) (v : Sample) (s : State) : (chain P v s).2.env = s.env := rfl
theorem chain_eng (P : Params) (v : Sample) (s : State) :
    (chain P v s).2.eng = { s.eng with
      fstate := filterStages P (bitReduce P v s) s.ctl.resonance s.ctl.alpha s.eng.fstate
      rvbRead := s.eng.rvbRead + 1
      rvbWrite := s.eng.rvbWrite + 1 } := rfl

/-- The chain writes one memory entry, the reverb line's at its write cursor. -/
theorem chain_memRead (P : Params) (v : Sample) (s : State) {M : Ram} {i : Nat}
    (h : M ≠ .rvb ∨ i ≠ s.eng.rvbWrite.toNat) : memRead P M i (chain P v s).2 = memRead P M i s := by
  rw [chain_eq, memRead_congr P M i (reverb_mem P _ _), memRead_memWrite_other P (by simpa using h)]
  exact memRead_congr P M i rfl

theorem chain_wf (P : Params) (v : Sample) (s : State) (hw : s.mem.wf P = true) :
    (chain P v s).2.mem.wf P = true := by
  rw [chain_eq, reverb_mem]
  exact memWrite_wf P (by simpa [capacity] using s.eng.rvbWrite.isLt) _ _ (by simpa using hw)

/-! ## The quantizer -/

@[simp] theorem quantize_ctl (P : Params) (v : Sample) (s : State) : (quantize P v s).2.ctl = s.ctl := rfl
@[simp] theorem quantize_seq (P : Params) (v : Sample) (s : State) : (quantize P v s).2.seq = s.seq := rfl
@[simp] theorem quantize_mem (P : Params) (v : Sample) (s : State) : (quantize P v s).2.mem = s.mem := rfl
@[simp] theorem quantize_env (P : Params) (v : Sample) (s : State) : (quantize P v s).2.env = s.env := rfl
theorem quantize_eng (P : Params) (v : Sample) (s : State) :
    (quantize P v s).2.eng = { s.eng with
      glideRolling := glideValue P s.eng.glideRolling s.ctl.glide v
      probMap := probMap P s } := rfl

/-! ## The loop machinery, for any post-processing that leaves it alone -/

/-- A post-processing step leaves the control and sequencing registers, the outside, the loop registers, every other
register the loop engine does not own, and every memory but the reverb line. -/
structure LeavesLoop (P : Params) (post : Sample → State → Sample × State) : Prop where
  ctl : ∀ v s, (post v s).2.ctl = s.ctl
  seq : ∀ v s, (post v s).2.seq = s.seq
  env : ∀ v s, (post v s).2.env = s.env
  loopPointer : ∀ v s, (post v s).2.eng.loopPointer = s.eng.loopPointer
  morphCounter : ∀ v s, (post v s).2.eng.morphCounter = s.eng.morphCounter
  rebuildIdx : ∀ v s, (post v s).2.eng.rebuildIdx = s.eng.rebuildIdx
  calAvg : ∀ v s, (post v s).2.eng.calAvg = s.eng.calAvg
  reads : ∀ v s M i, M ≠ .rvb → memRead P M i (post v s).2 = memRead P M i s
  wf : ∀ v s, s.mem.wf P = true → (post v s).2.mem.wf P = true

theorem chain_leavesLoop (P : Params) : LeavesLoop P (chain P) where
  ctl := chain_ctl P
  seq := chain_seq P
  env := chain_env P
  loopPointer _ _ := rfl
  morphCounter _ _ := rfl
  rebuildIdx _ _ := rfl
  calAvg _ _ := rfl
  reads v s _ _ h := chain_memRead P v s (.inl h)
  wf := chain_wf P

theorem quantize_leavesLoop (P : Params) : LeavesLoop P (quantize P) where
  ctl := quantize_ctl P
  seq := quantize_seq P
  env := quantize_env P
  loopPointer _ _ := rfl
  morphCounter _ _ := rfl
  rebuildIdx _ _ := rfl
  calAvg _ _ := rfl
  reads v s M i _ := memRead_congr P M i (quantize_mem P v s)
  wf v s h := by rw [quantize_mem]; exact h

@[simp] theorem morphStep_ctl (P : Params) (pin : AdcPin) (p : Nat) (s : State) :
    (morphStep P pin p s).ctl = s.ctl := by unfold morphStep; dsimp only; split <;> rfl
@[simp] theorem morphStep_seq (P : Params) (pin : AdcPin) (p : Nat) (s : State) :
    (morphStep P pin p s).seq = s.seq := by unfold morphStep; dsimp only; split <;> rfl
@[simp] theorem morphStep_eng (P : Params) (pin : AdcPin) (p : Nat) (s : State) :
    (morphStep P pin p s).eng = s.eng := by unfold morphStep; dsimp only; split <;> rfl
@[simp] theorem morphStep_env (P : Params) (pin : AdcPin) (p : Nat) (s : State) :
    (morphStep P pin p s).env = s.env := by unfold morphStep; dsimp only; split <;> rfl

/-- A morph step writes only position `p` of INBUF and MORPHBUF. -/
theorem morphStep_memRead (P : Params) (pin : AdcPin) (p : Nat) (s : State) {M : Ram} {i : Nat}
    (h : (M ≠ .inbuf ∧ M ≠ .morphbuf) ∨ i ≠ p) : memRead P M i (morphStep P pin p s) = memRead P M i s := by
  unfold morphStep
  dsimp only
  split
  · rw [memRead_memWrite_other P (h.imp_left And.left), memRead_memWrite_other P (h.imp_left And.right)]
  · rfl

theorem morphStep_wf (P : Params) (pin : AdcPin) {p : Nat} (hp : p < 256) (s : State)
    (hw : s.mem.wf P = true) : (morphStep P pin p s).mem.wf P = true := by
  unfold morphStep
  dsimp only
  split
  · exact memWrite_wf P (by simpa [capacity] using hp) _ _
      (memWrite_wf P (by simpa [capacity] using hp) _ _ hw)
  · exact hw

/-- Where the counter is 0 the morph event copies, then overwrites (44_loop_morph.md R155). -/
theorem morphStep_event (P : Params) (pin : AdcPin) {p : Nat} (hp : p < 256) (s : State)
    (hw : s.mem.wf P = true) (h0 : s.eng.morphCounter = 0) :
    memRead P .morphbuf p (morphStep P pin p s) = memRead P .inbuf p s ∧
      memRead P .inbuf p (morphStep P pin p s) = adcRead pin s := by
  have hw' := memWrite_wf P (M := .morphbuf) (by simpa [capacity] using hp) (memRead P .inbuf p s) s hw
  unfold morphStep
  dsimp only
  rw [if_pos h0, memRead_memWrite_other P (.inl (by decide)), memRead_memWrite_same P _ _ _ _ hw,
    memRead_memWrite_same P _ _ _ _ hw']
  exact ⟨rfl, rfl⟩

/-- Where the counter is not 0 the read is a dummy read (44_loop_morph.md R155). -/
theorem morphStep_dummy (P : Params) (pin : AdcPin) (p : Nat) (s : State) (h0 : s.eng.morphCounter ≠ 0) :
    morphStep P pin p s = s := by
  unfold morphStep; dsimp only; rw [if_neg h0]

@[simp] theorem finishLoop_ctl (s : State) : (finishLoop s).ctl = s.ctl := by
  unfold finishLoop; dsimp only; split <;> rfl
@[simp] theorem finishLoop_seq (s : State) : (finishLoop s).seq = s.seq := by
  unfold finishLoop; dsimp only; split <;> rfl
@[simp] theorem finishLoop_mem (s : State) : (finishLoop s).mem = s.mem := by
  unfold finishLoop; dsimp only; split <;> rfl
@[simp] theorem finishLoop_env (s : State) : (finishLoop s).env = s.env := by
  unfold finishLoop; dsimp only; split <;> rfl

/-- A loop tick ends by advancing the pointer and, where the pointer comes to 0, stepping the counter
(44_loop_morph.md R154, R157). -/
theorem finishLoop_eng (s : State) :
    (finishLoop s).eng = { s.eng with
      loopPointer := nextPointer s.ctl.loopLength s.eng.loopPointer
      morphCounter :=
        if nextPointer s.ctl.loopLength s.eng.loopPointer = 0 then
          (if s.eng.morphCounter = 0 then morphReload s.ctl.morphRate else s.eng.morphCounter - 1)
        else s.eng.morphCounter } := by
  by_cases h : nextPointer s.ctl.loopLength s.eng.loopPointer = 0
  · simp [finishLoop, h]
  · have h' : ¬(advancePtr s).eng.loopPointer = 0 := h
    have e : finishLoop s = advancePtr s := if_neg h'
    rw [e, advancePtr_eng, if_neg h]

section LoopTick

variable {P : Params} {post : Sample → State → Sample × State} (hp : LeavesLoop P post) (pin : AdcPin) (s : State)
include hp

theorem loopTick_ctl : (loopTick P pin post s).ctl = s.ctl := by simp [loopTick, hp.ctl]
theorem loopTick_seq : (loopTick P pin post s).seq = s.seq := by simp [loopTick, hp.seq]
theorem loopTick_env : (loopTick P pin post s).env = s.env := by simp [loopTick, hp.env]

/-- The registers after a loop tick: those the post-processing left, the output, the pointer and the counter. -/
theorem loopTick_eng :
    (loopTick P pin post s).eng = { (post (loopBlend P s.eng.loopPointer.toNat s) s).2.eng with
      dacOut := (post (loopBlend P s.eng.loopPointer.toNat s) s).1
      loopPointer := nextPointer s.ctl.loopLength s.eng.loopPointer
      morphCounter :=
        if nextPointer s.ctl.loopLength s.eng.loopPointer = 0 then
          (if s.eng.morphCounter = 0 then morphReload s.ctl.morphRate else s.eng.morphCounter - 1)
        else s.eng.morphCounter } := by
  simp [loopTick, finishLoop_eng, hp.ctl, hp.loopPointer, hp.morphCounter]

/-- A loop tick writes only position `loop_pointer` of the three buffers, besides the reverb line. -/
theorem loopTick_memRead {M : Ram} {i : Nat} (hM : M ≠ .rvb)
    (h : M = .bittab ∨ i ≠ s.eng.loopPointer.toNat) :
    memRead P M i (loopTick P pin post s) = memRead P M i s := by
  have h1 : (M ≠ .inbuf ∧ M ≠ .morphbuf) ∨ i ≠ s.eng.loopPointer.toNat :=
    h.imp_left (fun e => by subst e; exact ⟨by decide, by decide⟩)
  have h2 : M ≠ .outbuf ∨ i ≠ s.eng.loopPointer.toNat := h.imp_left (fun e => by subst e; decide)
  simp only [loopTick]
  rw [memRead_congr P M i (finishLoop_mem _), morphStep_memRead P pin _ _ h1, memRead_congr P M i (setDac_mem _ _),
    memRead_memWrite_other P h2, hp.reads _ _ _ _ hM]

theorem loopTick_wf (hw : s.mem.wf P = true) : (loopTick P pin post s).mem.wf P = true := by
  have hb : s.eng.loopPointer.toNat < 256 := s.eng.loopPointer.isLt
  simp only [loopTick, finishLoop_mem]
  exact morphStep_wf P pin hb _ (memWrite_wf P (by simpa [capacity] using hb) _ _ (hp.wf _ _ hw))

theorem nonLoopTick_ctl : (nonLoopTick P pin post s).ctl = s.ctl := by simp [nonLoopTick, hp.ctl]
theorem nonLoopTick_seq : (nonLoopTick P pin post s).seq = s.seq := by simp [nonLoopTick, hp.seq]
theorem nonLoopTick_env : (nonLoopTick P pin post s).env = s.env := by simp [nonLoopTick, hp.env]

/-- The registers after a non-loop tick: those the post-processing left, the output and the pointer. -/
theorem nonLoopTick_eng :
    (nonLoopTick P pin post s).eng =
      { (post (adcRead pin s) (memWrite P .inbuf s.eng.loopPointer.toNat (adcRead pin s) s)).2.eng with
        dacOut := (post (adcRead pin s) (memWrite P .inbuf s.eng.loopPointer.toNat (adcRead pin s) s)).1
        loopPointer := nextPointer s.ctl.loopLength s.eng.loopPointer } := by
  simp [nonLoopTick, hp.ctl, hp.loopPointer]

/-- A non-loop tick writes only position `loop_pointer` of INBUF and OUTBUF, besides the reverb line. -/
theorem nonLoopTick_memRead {M : Ram} {i : Nat} (hM : M ≠ .rvb)
    (h : (M ≠ .inbuf ∧ M ≠ .outbuf) ∨ i ≠ s.eng.loopPointer.toNat) :
    memRead P M i (nonLoopTick P pin post s) = memRead P M i s := by
  simp only [nonLoopTick]
  rw [memRead_congr P M i (advancePtr_mem _), memRead_congr P M i (setDac_mem _ _),
    memRead_memWrite_other P (h.imp_left And.right), hp.reads _ _ _ _ hM,
    memRead_memWrite_other P (h.imp_left And.left)]

theorem nonLoopTick_wf (hw : s.mem.wf P = true) : (nonLoopTick P pin post s).mem.wf P = true := by
  have hb : s.eng.loopPointer.toNat < 256 := s.eng.loopPointer.isLt
  simp only [nonLoopTick, advancePtr_mem, setDac_mem]
  exact memWrite_wf P (by simpa [capacity] using hb) _ _
    (hp.wf _ _ (memWrite_wf P (by simpa [capacity] using hb) _ _ hw))

end LoopTick

/-! ## Calibration -/

@[simp] theorem calTick_ctl (P : Params) (s : State) : (calTick P s).ctl = s.ctl := rfl
@[simp] theorem calTick_seq (P : Params) (s : State) : (calTick P s).seq = s.seq := rfl
@[simp] theorem calTick_env (P : Params) (s : State) : (calTick P s).env = s.env := rfl
theorem calTick_eng (P : Params) (s : State) :
    (calTick P s).eng = { s.eng with
      calAvg := calValue P s.eng.calAvg s.env.pins.adcCv
      dacOut := fullScale
      loopPointer := nextPointer s.ctl.loopLength s.eng.loopPointer } := rfl

/-- A calibration tick writes only position `loop_pointer` of INBUF and OUTBUF. -/
theorem calTick_memRead (P : Params) (s : State) {M : Ram} {i : Nat}
    (h : (M ≠ .inbuf ∧ M ≠ .outbuf) ∨ i ≠ s.eng.loopPointer.toNat) :
    memRead P M i (calTick P s) = memRead P M i s := by
  simp only [calTick]
  rw [memRead_congr P M i (advancePtr_mem _), memRead_congr P M i (setDac_mem _ _),
    memRead_congr P M i (calAverage_mem _ _ _), memRead_memWrite_other P (h.imp_left And.right),
    memRead_memWrite_other P (h.imp_left And.left)]

theorem calTick_wf (P : Params) (s : State) (hw : s.mem.wf P = true) : (calTick P s).mem.wf P = true := by
  have hb : s.eng.loopPointer.toNat < 256 := s.eng.loopPointer.isLt
  simp only [calTick, advancePtr_mem, setDac_mem, calAverage_mem]
  exact memWrite_wf P (by simpa [capacity] using hb) _ _ (memWrite_wf P (by simpa [capacity] using hb) _ _ hw)

/-! ## The CV dispatch -/

/-- Everything the CV dispatch can do (40_tick_dispatcher.md R99): count; expire and be stopped by the gate; or expire
and run the engine once. -/
theorem cvDispatch_cases (P : Params) (gated : Bool) (s : State) :
    (s.seq.cvDivCnt - 1 ≠ 0 ∧
      cvDispatch P gated s = { s with seq := { s.seq with cvDivCnt := s.seq.cvDivCnt - 1 } }) ∨
    (s.seq.cvDivCnt - 1 = 0 ∧ gated = true ∧ s.seq.paused = true ∧
      cvDispatch P gated s = { s with seq := { s.seq with cvDivCnt := P.cvDiv } }) ∨
    (s.seq.cvDivCnt - 1 = 0 ∧ (gated && s.seq.paused) = false ∧
      cvDispatch P gated s =
        (let t := cvTick P { s with seq := { s.seq with cvDivCnt := P.cvDiv } }
         if gated then { t with seq := { t.seq with paused := true } } else t)) := by
  unfold cvDispatch
  dsimp only
  by_cases h : s.seq.cvDivCnt - 1 = 0
  · rw [if_neg (by simpa using h)]
    by_cases hg : (gated && s.seq.paused) = true
    · rw [if_pos hg]
      simp only [Bool.and_eq_true] at hg
      exact .inr (.inl ⟨h, hg.1, hg.2, rfl⟩)
    · rw [if_neg hg]
      exact .inr (.inr ⟨h, by simpa using hg, rfl⟩)
  · rw [if_pos h]
    exact .inl ⟨h, rfl⟩

end Sys2Proof.Machine
end

