-- ==== Sys2Proof/Laws/PerInstr.lean ====
section
/-! SUPPORT. PerInstr.lean: one law per instruction: its encoding matches its row of spec/opcode_table.json. -/

namespace Sys2Proof.Laws.EncodesInRow

/-- A row of spec/opcode_table.json: its width, the bits it fixes and their mask, and the bits it ignores. -/
structure Row where
  width : Nat
  fixed : Nat
  mask : Nat
  ignored : Nat
  deriving DecidableEq, Repr

/-- The row of each instruction, from spec/opcode_table.json (30_encoding.md R72, R75, R78). -/
def row : Instr → Row
  | .nop => ⟨20, 0x00000, 0xF0000, 0x0FFFF⟩
  | .setCrush _ => ⟨20, 0x10000, 0xF0000, 0x0FC00⟩
  | .setGlide _ => ⟨20, 0x20000, 0xF0000, 0x0FF00⟩
  | .setResonance _ => ⟨20, 0x30000, 0xF0000, 0x0FF00⟩
  | .setRvbFeedback _ => ⟨20, 0x40000, 0xF0000, 0x0FF00⟩
  | .setRvbWet _ => ⟨20, 0x50000, 0xF0000, 0x0FF00⟩
  | .setRvbDelay _ => ⟨20, 0x60000, 0xF0000, 0x0F800⟩
  | .setLoopLength _ => ⟨20, 0x70000, 0xF0000, 0x0FF00⟩
  | .setMorphRate _ => ⟨20, 0x80000, 0xF0000, 0x0FFF0⟩
  | .setRoot _ => ⟨20, 0x90000, 0xF0000, 0x0FFF0⟩
  | .setScale _ => ⟨20, 0xA0000, 0xF0000, 0x0FFE0⟩
  | .setRate _ _ => ⟨20, 0xB0000, 0xF0000, 0x0E000⟩
  | .setMode _ _ => ⟨20, 0xC0000, 0xF0000, 0x0FFF8⟩
  | .reservedD => ⟨20, 0xD0000, 0xF0000, 0x0FFFF⟩
  | .reservedE => ⟨20, 0xE0000, 0xF0000, 0x0FFFF⟩
  | .reservedF => ⟨20, 0xF0000, 0xF0000, 0x0FFFF⟩
  | .idle => ⟨20, 0xC0000, 0xFFFFF, 0x00000⟩
  | .loopOff => ⟨20, 0x70000, 0xFFFFF, 0x00000⟩
  | .crushOff => ⟨20, 0x10000, 0xFFFFF, 0x00000⟩
  | .dry => ⟨20, 0x50000, 0xFFFFF, 0x00000⟩
  | .dispatchIdle => ⟨3, 0x0, 0x3, 0x4⟩
  | .dispatchAudio => ⟨3, 0x1, 0x3, 0x4⟩
  | .dispatchCvFree => ⟨3, 0x2, 0x7, 0x0⟩
  | .dispatchCvGated => ⟨3, 0x6, 0x7, 0x0⟩
  | .dispatchCalibrate => ⟨3, 0x3, 0x3, 0x4⟩

/-- An encoded instruction's width and bits. -/
def bitsOf : Encoded → Nat × Nat
  | .command w => (20, w.toNat)
  | .selector v => (3, v.toNat)

/-- The encoded word has the row's width, matches the row, and writes the ignored bits 0 (30_encoding.md R74, R77);
for a selector whose `gate_en` the row ignores that is the encoding with `gate_en = 0`. -/
abbrev Statement (i : Instr) : Prop :=
  (bitsOf (encode i)).1 = (row i).width ∧ (bitsOf (encode i)).2 &&& (row i).mask = (row i).fixed ∧
    (bitsOf (encode i)).2 &&& (row i).ignored = 0

theorem nop : Statement .nop := by decide
theorem setCrush : ∀ d : BitVec 10, Statement (.setCrush d) := by decide +kernel
theorem setGlide : ∀ d : BitVec 8, Statement (.setGlide d) := by decide +kernel
theorem setResonance : ∀ d : BitVec 8, Statement (.setResonance d) := by decide +kernel
theorem setRvbFeedback : ∀ d : BitVec 8, Statement (.setRvbFeedback d) := by decide +kernel
theorem setRvbWet : ∀ d : BitVec 8, Statement (.setRvbWet d) := by decide +kernel
theorem setRvbDelay : ∀ d : BitVec 11, Statement (.setRvbDelay d) := by decide +kernel
theorem setLoopLength : ∀ d : BitVec 8, Statement (.setLoopLength d) := by decide +kernel
theorem setMorphRate : ∀ d : BitVec 4, Statement (.setMorphRate d) := by decide +kernel
theorem setRoot : ∀ d : BitVec 4, Statement (.setRoot d) := by decide +kernel
theorem setScale : ∀ d : BitVec 5, Statement (.setScale d) := by decide +kernel
theorem setRate : ∀ (rate : BitVec 10) (octdiv : BitVec 3), Statement (.setRate rate octdiv) := by decide +kernel
theorem setMode (mode : Mode) (gate : Bool) : Statement (.setMode mode gate) := by cases mode <;> cases gate <;> decide
theorem reservedD : Statement .reservedD := by decide
theorem reservedE : Statement .reservedE := by decide
theorem reservedF : Statement .reservedF := by decide
theorem idle : Statement .idle := by decide
theorem loopOff : Statement .loopOff := by decide
theorem crushOff : Statement .crushOff := by decide
theorem dry : Statement .dry := by decide
theorem dispatchIdle : Statement .dispatchIdle := by decide
theorem dispatchAudio : Statement .dispatchAudio := by decide
theorem dispatchCvFree : Statement .dispatchCvFree := by decide
theorem dispatchCvGated : Statement .dispatchCvGated := by decide
theorem dispatchCalibrate : Statement .dispatchCalibrate := by decide

end Sys2Proof.Laws.EncodesInRow
end

