-- ==== Sys2Proof/Laws/Steps.lean ====
section
/-! SUPPORT. Steps.lean: what an overflow and its engines can do, once per step function. -/

namespace Sys2Proof.Machine

/-! ## The two pitch and audio engines: loop or non-loop path -/

theorem audioTick_cases (P : Params) (s : State) :
    (s.ctl.loopLength = 0 ∧ audioTick P s = nonLoopTick P .audio (chain P) s) ∨
    (s.ctl.loopLength ≠ 0 ∧ audioTick P s = loopTick P .audio (chain P) s) := by
  unfold audioTick
  by_cases h : s.ctl.loopLength = 0
  · exact .inl ⟨h, if_pos h⟩
  · exact .inr ⟨h, if_neg h⟩

theorem cvTick_cases (P : Params) (s : State) :
    (s.ctl.loopLength = 0 ∧ cvTick P s = nonLoopTick P .cv (quantize P) s) ∨
    (s.ctl.loopLength ≠ 0 ∧ cvTick P s = loopTick P .cv (quantize P) s) := by
  unfold cvTick
  by_cases h : s.ctl.loopLength = 0
  · exact .inl ⟨h, if_pos h⟩
  · exact .inr ⟨h, if_neg h⟩

@[simp] theorem audioTick_ctl (P : Params) (s : State) : (audioTick P s).ctl = s.ctl := by
  rcases audioTick_cases P s with ⟨_, e⟩ | ⟨_, e⟩ <;> rw [e]
  · exact nonLoopTick_ctl (chain_leavesLoop P) _ s
  · exact loopTick_ctl (chain_leavesLoop P) _ s
@[simp] theorem audioTick_seq (P : Params) (s : State) : (audioTick P s).seq = s.seq := by
  rcases audioTick_cases P s with ⟨_, e⟩ | ⟨_, e⟩ <;> rw [e]
  · exact nonLoopTick_seq (chain_leavesLoop P) _ s
  · exact loopTick_seq (chain_leavesLoop P) _ s
@[simp] theorem audioTick_env (P : Params) (s : State) : (audioTick P s).env = s.env := by
  rcases audioTick_cases P s with ⟨_, e⟩ | ⟨_, e⟩ <;> rw [e]
  · exact nonLoopTick_env (chain_leavesLoop P) _ s
  · exact loopTick_env (chain_leavesLoop P) _ s
theorem audioTick_wf (P : Params) (s : State) (hw : s.mem.wf P = true) :
    (audioTick P s).mem.wf P = true := by
  rcases audioTick_cases P s with ⟨_, e⟩ | ⟨_, e⟩ <;> rw [e]
  · exact nonLoopTick_wf (chain_leavesLoop P) _ s hw
  · exact loopTick_wf (chain_leavesLoop P) _ s hw
@[simp] theorem cvTick_ctl (P : Params) (s : State) : (cvTick P s).ctl = s.ctl := by
  rcases cvTick_cases P s with ⟨_, e⟩ | ⟨_, e⟩ <;> rw [e]
  · exact nonLoopTick_ctl (quantize_leavesLoop P) _ s
  · exact loopTick_ctl (quantize_leavesLoop P) _ s
@[simp] theorem cvTick_seq (P : Params) (s : State) : (cvTick P s).seq = s.seq := by
  rcases cvTick_cases P s with ⟨_, e⟩ | ⟨_, e⟩ <;> rw [e]
  · exact nonLoopTick_seq (quantize_leavesLoop P) _ s
  · exact loopTick_seq (quantize_leavesLoop P) _ s
@[simp] theorem cvTick_env (P : Params) (s : State) : (cvTick P s).env = s.env := by
  rcases cvTick_cases P s with ⟨_, e⟩ | ⟨_, e⟩ <;> rw [e]
  · exact nonLoopTick_env (quantize_leavesLoop P) _ s
  · exact loopTick_env (quantize_leavesLoop P) _ s
theorem cvTick_wf (P : Params) (s : State) (hw : s.mem.wf P = true) : (cvTick P s).mem.wf P = true := by
  rcases cvTick_cases P s with ⟨_, e⟩ | ⟨_, e⟩ <;> rw [e]
  · exact nonLoopTick_wf (quantize_leavesLoop P) _ s hw
  · exact loopTick_wf (quantize_leavesLoop P) _ s hw

/-! ## The dispatch -/

/-- The dispatch by mode (40_tick_dispatcher.md R96), as a function of the registers. -/
def tickBody (P : Params) (s : State) : State :=
  match s.ctl.mode with
  | .idle => idleTick s
  | .audio => audioTick P s
  | .cv => cvDispatch P s.ctl.gateEn s
  | .calibrate => calTick P s

/-- The instruction the selector decodes to runs the engine of the mode. -/
theorem exec_currentSelector (s : State) :
    exec (decode (.selector (currentSelector s))) s = .next (tickBody Config.params s) := by
  unfold currentSelector tickBody
  cases s.ctl.gateEn <;> cases s.ctl.mode <;> rfl

/-- The state of an accepted overflow before the dispatch. -/
def acceptedHead (s : State) : State := stepOctave (acceptOverflow (overflowPoll s))

/-- The state an overflow leaves. -/
def overflowResult (s : State) : State :=
  if s.seq.busy then overflowPoll s
  else if s.seq.octCnt - 1 = 0 then tickBody Config.params (acceptedHead s)
  else acceptedHead s

theorem overflowPoll_busy (s : State) : (overflowPoll s).seq.busy = s.seq.busy := by
  rw [overflowPoll_seq]

theorem overflowPoll_octCnt (s : State) : (overflowPoll s).seq.octCnt = s.seq.octCnt := by
  rw [overflowPoll_seq]

/-- Everything an overflow can do (40_tick_dispatcher.md R91): be dropped, be accepted, or be accepted and process. -/
theorem overflow_eq (s : State) : overflow s = .next (overflowResult s) := by
  unfold overflow overflowHead overflowResult
  dsimp only
  rw [overflowPoll_busy, overflowPoll_octCnt]
  by_cases hb : s.seq.busy = true
  · simp [hb]
  · by_cases ho : s.seq.octCnt - 1 = 0
    · rw [if_neg hb, if_neg hb, if_pos ho, if_pos ho]
      exact exec_currentSelector _
    · rw [if_neg hb, if_neg hb, if_neg ho, if_neg ho]
      rfl

theorem clockEdge_eq (d : Draws) (s : State) :
    clockEdge d s = .next (if timerExpires s then overflowResult (setPins d (countTimer s)) else countTimer s) := by
  unfold clockEdge
  split <;> simp [overflow_eq]

/-- What a step does, for each event (20_memory.md R58). -/
theorem step_cases (s : State) :
    (∃ d, nextEvent s = .ovf d ∧ step s = .next (overflowResult (setPins d (consumeEvent s)))) ∨
    (∃ d, nextEvent s = .timerClock d ∧ step s = clockEdge d (consumeEvent s)) ∨
    (∃ us, nextEvent s = .done us ∧ step s = .next (if s.seq.busy then finishTick us (consumeEvent s) else consumeEvent s)) ∨
    (∃ w, nextEvent s = .present w ∧ step s = .next (presentCommand w (consumeEvent s))) ∨
    (nextEvent s = .cmd ∧ step s = commandStep (consumeEvent s)) ∨
    (∃ a, nextEvent s = .read a ∧
      step s = .next (if s.seq.busy then consumeEvent s else readPort Config.params a (consumeEvent s))) ∨
    (nextEvent s = .rebuild ∧
      step s = .next (if rebuildEnabled s then rebuildStep Config.params (consumeEvent s) else consumeEvent s)) ∨
    (nextEvent s = .rst ∧ step s = .next (resetStep Config.params (consumeEvent s))) := by
  unfold step
  cases h : nextEvent s with
  | ovf d => exact .inl ⟨d, rfl, overflow_eq _⟩
  | timerClock d => exact .inr (.inl ⟨d, rfl, rfl⟩)
  | done us => exact .inr (.inr (.inl ⟨us, rfl, by simp [takeEvent]⟩))
  | present w => exact .inr (.inr (.inr (.inl ⟨w, rfl, rfl⟩)))
  | cmd => exact .inr (.inr (.inr (.inr (.inl ⟨rfl, rfl⟩))))
  | read a =>
    refine .inr (.inr (.inr (.inr (.inr (.inl ⟨a, rfl, ?_⟩)))))
    cases hb : s.seq.busy <;> simp [takeEvent, rdReady, hb]
  | rebuild => exact .inr (.inr (.inr (.inr (.inr (.inr (.inl ⟨rfl, by simp [takeEvent, rebuildEnabled]⟩))))))
  | rst => exact .inr (.inr (.inr (.inr (.inr (.inr (.inr ⟨rfl, rfl⟩))))))

end Sys2Proof.Machine
end

