-- ==== Sys2Proof/Laws/Values.lean ====
section
/-! SUPPORT. Values.lean: bounds of the values the engines compute. -/

namespace Sys2Proof.Machine

/-- A non-zero bit vector is a positive number. -/
theorem toNat_pos_of_ne_zero {n : Nat} {v : BitVec n} (h : v ≠ 0) : 0 < v.toNat := by
  rcases Nat.eq_zero_or_pos v.toNat with h0 | h0
  · exact absurd (BitVec.eq_of_toNat_eq (by simpa using h0)) h
  · exact h0

/-- A weighted average of two values is bounded by any bound of both. -/
theorem tween_le {a b m : Nat} (w : Nat) (ha : a ≤ m) (hb : b ≤ m) (hw : w < 256) : tween a b w ≤ m := by
  unfold tween
  split
  · have : (b - a) * w / 256 ≤ b - a := by
      rw [Nat.div_le_iff_le_mul_add_pred (by omega)]
      have := Nat.mul_le_mul_left (b - a) (Nat.le_of_lt hw)
      omega
    omega
  · omega

/-- The advanced pointer lies inside an enabled loop (10_state.md R47 I-d). -/
theorem nextPointer_lt {L : BitVec 8} (h : L ≠ 0) (p : BitVec 8) : (nextPointer L p).toNat < L.toNat := by
  unfold nextPointer
  split
  · simpa using toNat_pos_of_ne_zero h
  · next hh => exact BitVec.lt_def.1 (BitVec.not_le.1 fun hle => hh ⟨h, hle⟩)

/-- For a pointer inside the loop, the advance is the plain one but at the last position. -/
theorem nextPointer_of_lt {L p : BitVec 8} (h : p.toNat < L.toNat) :
    nextPointer L p = if p.toNat + 1 = L.toNat then 0 else p + 1 := by
  have hL : L ≠ 0 := by rintro rfl; simp at h
  have hlt := L.isLt
  unfold nextPointer
  by_cases he : p.toNat + 1 = L.toNat
  · rw [if_pos he, if_pos ⟨hL, by rw [BitVec.le_def, BitVec.toNat_add]; simp; omega⟩]
  · rw [if_neg he, if_neg]
    rintro ⟨_, hle⟩
    rw [BitVec.le_def, BitVec.toNat_add] at hle
    simp at hle
    omega

/-- The reload of the morph counter is exact: `2^15` fits (44_loop_morph.md R160). -/
theorem morphReload_toNat (r : BitVec 4) : (morphReload r).toNat = 2 ^ r.toNat := by
  revert r; decide

/-- The stepped morph counter stays at most `2^morph_rate` (10_state.md R47 I-e). -/
theorem morphCounter_step_le {c : BitVec 16} {r : BitVec 4} (h : c.toNat ≤ 2 ^ r.toNat) :
    (if c = 0 then morphReload r else c - 1).toNat ≤ 2 ^ r.toNat := by
  split
  · exact (morphReload_toNat r).le
  · next h0 =>
    have h1 := toNat_pos_of_ne_zero h0
    have h2 := c.isLt
    simp only [BitVec.toNat_sub]
    simp
    omega

/-- A weighted mean of domain values is a domain value (45_cv_quantizer.md R172). -/
theorem glideMean_le {g v : Nat} (w : Nat) (hg : g ≤ 1023) (hv : v ≤ 1023) : (g * w + v * 16) / (w + 16) ≤ 1023 := by
  have h1 := Nat.mul_le_mul_right w hg
  have h2 : g * w + v * 16 ≤ 1023 * (w + 16) := by omega
  calc (g * w + v * 16) / (w + 16) ≤ 1023 * (w + 16) / (w + 16) := Nat.div_le_div_right h2
    _ = 1023 := Nat.mul_div_cancel _ (by omega)

/-- A domain value is not `SENTINEL`. -/
theorem Params.ne_sentinel {P : Params} {g : BitVec 16} (h : g.toNat ≤ 1023) : g ≠ P.sentinel := by
  rintro rfl
  exact absurd h (Nat.not_le.2 P.sentinel_outside)

/-- What P3 forbids (41_bit_reduction.md R111): an entry of the first step stays in the first step as the crush amount
grows. -/
theorem Params.stair_first_step {P : Params} {c d : Sample} (h : c.toNat ≤ d.toNat) {i : Sample}
    (hi : P.stair c i = P.stair c 0) : P.stair d i = P.stair d 0 := by
  have hc := P.stairWidth_pos c
  have hw := P.stairWidth_monotone c d h
  rw [P.stair_step] at hi ⊢
  have hlt : i.toNat < P.stairWidth c := by
    rcases Nat.div_eq_zero_iff.1 (hi.trans (by simp)) with h0 | h0 <;> omega
  rw [Nat.div_eq_of_lt (by omega)]
  simp

/-- Priming or averaging leaves `glide_rolling` in the domain (45_cv_quantizer.md R172). -/
theorem glideValue_le {P : Params} {g : BitVec 16} (w : BitVec 8) (v : Sample) (h : Primed P g) : (glideValue P g w v).toNat ≤ 1023 := by
  have hv : v.toNat < 1024 := v.isLt
  unfold glideValue
  rcases h with h | h
  · rw [if_pos h]; simp; omega
  · rw [if_neg (Params.ne_sentinel h)]
    simp only [BitVec.toNat_ofNat]
    exact (Nat.mod_le _ _).trans (glideMean_le w.toNat h (by omega))

/-- Priming or averaging leaves `cal_avg` in the domain (46_calibrate.md R191). -/
theorem calValue_le {P : Params} {g : BitVec 16} (v : Sample) (h : Primed P g) : (calValue P g v).toNat ≤ 1023 := by
  have hv : v.toNat < 1024 := v.isLt
  unfold calValue
  rcases h with h | h
  · rw [if_pos h]; simp; omega
  · rw [if_neg (Params.ne_sentinel h)]
    simp only [BitVec.toNat_ofNat]
    omega

/-- Advancing both cursors keeps their distance (43_reverb.md R137). -/
theorem cursors_advance (w r : BitVec 11) :
    ((w + 1).toNat + 2048 - (r + 1).toNat) % 2048 = (w.toNat + 2048 - r.toNat) % 2048 := by
  have := w.isLt
  have := r.isLt
  simp only [BitVec.toNat_add]
  simp
  omega

/-- The divisor is exact: one of 1, 2, 4, 8, 16, 32 (10_state.md R25, R47 I-h). -/
theorem octaveDivisor_toNat (o : BitVec 3) : (octaveDivisor o).toNat = 2 ^ min o.toNat 5 := by
  revert o; decide

end Sys2Proof.Machine
end

