-- ==== Sys2Proof/Tests/Slice0.lean ====
section
/-! SUPPORT. Slice0.lean: the model's own tests. Words and values are those of spec/30_encoding.md and
spec/95_test_vectors.md (instantiation T, its section 0), and one witness per obligation that has hypotheses. -/

namespace Sys2Proof.Tests

open Sys2Proof Sys2Proof.Machine

/-- The test instantiation T (95_test_vectors.md section 0). -/
def T : Params := {}

/-- The reset state under T. -/
def base : State := State.resetWith T

/-- `s` with other control registers. -/
def withCtl (f : Control → Control) (s : State) : State := { s with ctl := f s.ctl }
/-- `s` with other sequencing registers. -/
def withSeq (f : Sequencing → Sequencing) (s : State) : State := { s with seq := f s.seq }
/-- `s` with other engine registers. -/
def withEng (f : Engine → Engine) (s : State) : State := { s with eng := f s.eng }
/-- `s` with one memory entry written. -/
def poke (M : Ram) (i : Nat) (v : Sample) (s : State) : State := memWrite T M i v s
/-- Draws with the given inputs and every jitter draw `j`. -/
def draws (audio cv : Sample) (trig : Bool) (j : Nat) : Draws :=
  { adcAudio := audio, adcCv := cv, trig := trig, jit := Vector.replicate 12 j }
/-- The next state of an instruction, `base` where there is none. -/
def after (i : Instr) (s : State) : State :=
  match exec i s with
  | .next t => t
  | _ => base
/-- The decoded instruction of a command word, run. -/
def run (w : CommandWord) (s : State) : State := after (decode (.command w)) s
/-- The five filter registers as numbers. -/
def stages (s : State) : List Nat :=
  [s.eng.fstate.f0.toNat, s.eng.fstate.f1.toNat, s.eng.fstate.f2.toNat, s.eng.fstate.f3.toNat, s.eng.fstate.f4.toNat]
/-- `s` with an event queued. -/
def queued (e : Event) (s : State) : State := scheduleFirst e s

/-! ## WellFormed: one ill-formed term per check -/

theorem test_illformed_setMode_idle : (Instr.setMode .idle false).wellFormed = false := by decide
theorem test_illformed_setLoopLength_zero : (Instr.setLoopLength 0).wellFormed = false := by decide
theorem test_illformed_setCrush_zero : (Instr.setCrush 0).wellFormed = false := by decide
theorem test_illformed_setRvbWet_zero : (Instr.setRvbWet 0).wellFormed = false := by decide

/-! ## Decoding: every constructor, by a word written out from 30_encoding.md R72, R75, R78 -/

theorem test_decode_setters :
    decode (.command 0b00000000000000000000#20) = .nop ∧
    decode (.command 0b00010000001000000000#20) = .setCrush 512 ∧
    decode (.command 0b00100000000000010000#20) = .setGlide 16 ∧
    decode (.command 0b00110000000011001000#20) = .setResonance 200 ∧
    decode (.command 0b01000000000010000000#20) = .setRvbFeedback 128 ∧
    decode (.command 0b01010000000001000000#20) = .setRvbWet 64 ∧
    decode (.command 0b01100000010000000000#20) = .setRvbDelay 1024 ∧
    decode (.command 0b01110000000001000000#20) = .setLoopLength 64 ∧
    decode (.command 0b10000000000000001010#20) = .setMorphRate 10 ∧
    decode (.command 0b10010000000000000111#20) = .setRoot 7 ∧
    decode (.command 0b10100000000000000011#20) = .setScale 3 ∧
    decode (.command 0b10110000110100101100#20) = .setRate 300 3 ∧
    decode (.command 0b11000000000000000110#20) = .setMode .cv true := by decide
theorem test_decode_reserved :
    decode (.command 0b11010001001000110100#20) = .reservedD ∧
    decode (.command 0b11100000000000000000#20) = .reservedE ∧
    decode (.command 0b11111111111111111111#20) = .reservedF := by decide
theorem test_decode_pseudo :
    decode (.command 0b11000000000000000000#20) = .idle ∧
    decode (.command 0b01110000000000000000#20) = .loopOff ∧
    decode (.command 0b00010000000000000000#20) = .crushOff ∧
    decode (.command 0b01010000000000000000#20) = .dry := by decide
theorem test_decode_selectors :
    (decode (.selector 0b000#3) = .dispatchIdle ∧ decode (.selector 0b100#3) = .dispatchIdle) ∧
    (decode (.selector 0b001#3) = .dispatchAudio ∧ decode (.selector 0b101#3) = .dispatchAudio) ∧
    decode (.selector 0b010#3) = .dispatchCvFree ∧
    decode (.selector 0b110#3) = .dispatchCvGated ∧
    (decode (.selector 0b011#3) = .dispatchCalibrate ∧ decode (.selector 0b111#3) = .dispatchCalibrate) := by decide
/-- Vectors E30, E31, E35, E41 to E44: don't-care bits. -/
theorem test_decode_dont_care :
    decode (.command 0x1FE00#20) = .setCrush 512 ∧ decode (.command 0x3FFC8#20) = .setResonance 200 ∧
    decode (.command 0x9FFF7#20) = .setRoot 7 ∧ decode (.command 0xBE12C#20) = .setRate 300 0 ∧
    decode (.command 0xC0007#20) = .setMode .calibrate true ∧
    decode (.command 0xCFFF8#20) = .setMode .idle false ∧ decode (.command 0x0FFFF#20) = .nop := by decide
/-- Vectors E2, E8, E14, E21: encoding. -/
theorem test_encode_vectors :
    encode (.setCrush 512) = .command 0x10200#20 ∧ encode (.setRvbDelay 1024) = .command 0x60400#20 ∧
    encode (.setRate 300 3) = .command 0xB0D2C#20 ∧ encode (.setMode .cv true) = .command 0xC0006#20 := by decide
/-- Bits wider than the port are refused by name (log 23). -/
theorem test_decodeBits_refuses :
    decodeBits 24 0x100000 = .error .commandTooWide ∧ decodeBits 8 8 = .error .selectorTooWide ∧
    decodeBits 32 0 = .error .noSuchLength := ⟨rfl, rfl, rfl⟩
theorem test_decodeTableWord :
    decodeTableWord 24 0xB0D2C = some (.setRate 300 3) ∧ decodeTableWord 8 6 = some .dispatchCvGated := by decide

/-! ## Commands -/

/-- Vectors B8, E23. -/
theorem test_setCrush : (run 0x10200#20 base).ctl.crush = 512 ∧ (run 0x10200#20 base).ctl.scaleCrush = 512 ∧
    (run 0x10200#20 base).eng.rebuildIdx = 0 ∧ cmdReady (run 0x10200#20 base) = false := by decide +kernel
theorem test_crushOff : (run 0x10000#20 (run 0x10200#20 base)).ctl.scaleCrush = 0 ∧
    (run 0x10000#20 base).eng.rebuildIdx = 0 := by decide +kernel
/-- Vectors E4 to E7, E24. -/
theorem test_setGlide : (run 0x20010#20 base).ctl.glide = 16 := by decide +kernel
theorem test_setResonance : (run 0x300C8#20 base).ctl.resonance = 200 := by decide +kernel
theorem test_setRvbFeedback : (run 0x40080#20 base).ctl.rvbFeedback = 128 := by decide +kernel
theorem test_setRvbWet : (run 0x50040#20 base).ctl.rvbWet = 64 := by decide +kernel
theorem test_dry : (run 0x50000#20 (run 0x50040#20 base)).ctl.rvbWet = 0 := by decide +kernel
/-- Vectors RV1, RV2, RV4. -/
theorem test_setRvbDelay :
    (run 0x60400#20 (withEng ({ · with rvbWrite := 2000, rvbRead := 2000 }) base)).eng.rvbRead = 976 ∧
    (run 0x6000A#20 (withEng ({ · with rvbWrite := 5 }) base)).eng.rvbRead = 2043 ∧
    (run 0x607FF#20 (withEng ({ · with rvbWrite := 5 }) base)).eng.rvbRead = 6 := by decide +kernel
/-- Section 2.6, SET_LOOP_LENGTH: (64, 64) to (64, 0); (63, 64) to (64, 63); (200, 0) to (0, 200). -/
theorem test_setLoopLength :
    (run 0x70040#20 (withEng ({ · with loopPointer := 64 }) base)).eng.loopPointer = 0 ∧
    (run 0x70040#20 (withEng ({ · with loopPointer := 63 }) base)).eng.loopPointer = 63 := by decide +kernel
theorem test_loopOff : (run 0x70000#20 (withEng ({ · with loopPointer := 200 }) base)).eng.loopPointer = 200 ∧
    (run 0x70000#20 (run 0x70040#20 base)).ctl.loopLength = 0 := by decide +kernel
/-- Vector E46 and section 2.6, SET_MORPH_RATE 15. -/
theorem test_setMorphRate : (run 0x8001A#20 base).eng.morphCounter = 1024 ∧
    (run 0x8000F#20 base).eng.morphCounter = 32768 := by decide +kernel
/-- Vectors E32 to E38. -/
theorem test_setRoot : (run 0x9000F#20 base).ctl.noteOffset = 12 ∧ (run 0x9000D#20 base).ctl.noteOffset = 12 ∧
    (run 0x90007#20 base).ctl.noteOffset = 7 := by decide +kernel
theorem test_setScale : (run 0xA001F#20 base).ctl.scaleIndex = 21 ∧ (run 0xA0016#20 base).ctl.scaleIndex = 21 ∧
    (run 0xA0003#20 base).ctl.scaleIndex = 3 := by decide +kernel
/-- Vectors H9, E39. -/
theorem test_setRate : (setRate T 300 3 base).ctl.timerPeriod = 1700 ∧ (setRate T 300 3 base).ctl.isrPeriod = 8 ∧
    (setRate T 300 3 base).seq.octCnt = 8 ∧ (setRate T 0 7 base).ctl.isrPeriod = 32 := by decide +kernel
/-- Vectors H10, F29. -/
theorem test_setMode : (run 0xC0006#20 (withSeq ({ · with paused := false }) base)).seq.paused = true ∧
    (run 0xC0006#20 base).ctl.gateEn = true ∧ (run 0xC0006#20 base).ctl.mode = .cv ∧
    stages (run 0xC0002#20 (withEng ({ · with fstate := ⟨700, 696, 686, 669, 647⟩ }) base)) =
      [700, 696, 686, 669, 647] := by decide +kernel
theorem test_idle : stages (run 0xC0000#20 (withEng ({ · with fstate := ⟨700, 696, 686, 669, 647⟩ }) base)) =
    [512, 512, 512, 512, 512] := by decide +kernel
/-- Vectors E44, E45. -/
theorem test_nop_reserved : run 0x0FFFF#20 base = base ∧ run 0xD1234#20 base = base ∧ run 0xE0000#20 base = base ∧
    run 0xFFFFF#20 base = base := by decide +kernel

/-! ## Dispatch -/

/-- Vectors T1, S6: Idle. -/
theorem test_dispatchIdle : (after .dispatchIdle (withEng ({ · with dacOut := 700 }) base)).eng.dacOut = 512 := by
  decide +kernel
/-- Vector L8: a non-loop audio tick from reset. -/
theorem test_audioTick :
    (let t := audioTick T (setPins (draws 700 0 false 0) base)
     (memRead T .inbuf 0 t, stages t, memRead T .rvb 0 t, memRead T .outbuf 0 t, t.eng.dacOut, t.eng.loopPointer,
       t.eng.rvbRead, t.eng.rvbWrite, t.eng.morphCounter)) =
      (700, [700, 605, 558, 534, 522], 522, 522, 522, 1, 1, 1, 1) := by decide +kernel
/-- Vector L9, tick 6: the loop path at a morph event that ends the cycle. -/
theorem test_audioTick_loop :
    (let s := withCtl ({ · with loopLength := 2, morphRate := 1 }) (withEng
        ({ · with loopPointer := 1, morphCounter := 0 })
        (poke .inbuf 0 15 (poke .inbuf 1 200 (poke .morphbuf 0 100 (poke .morphbuf 1 800 base)))))
     let t := audioTick T (setPins (draws 16 0 false 0) s)
     (memRead T .inbuf 1 t, memRead T .morphbuf 1 t, t.eng.loopPointer, t.eng.morphCounter, loopBlend T 1 s)) =
      (16, 200, 0, 2, 200) := by decide +kernel
/-- Vector T10: the free coarse divider, at 128 and at its expiry. -/
theorem test_cvDispatch_free :
    (cvDispatch T false base).seq.cvDivCnt = 127 ∧ (cvDispatch T false base).eng.loopPointer = 0 ∧
    (cvDispatch T false (withSeq ({ · with cvDivCnt := 1 }) base)).seq.cvDivCnt = 128 ∧
    (cvDispatch T false (withSeq ({ · with cvDivCnt := 1 }) base)).eng.loopPointer = 1 := by decide +kernel
/-- Vectors T11, T12: the gate at the divider's expiry. -/
theorem test_cvDispatch_gated :
    (let s := withSeq ({ · with cvDivCnt := 1 }) base
     ((cvDispatch T true s).seq.cvDivCnt, (cvDispatch T true s).eng.loopPointer)) = (128, 0) ∧
    (let s := withSeq ({ · with cvDivCnt := 1, paused := false }) base
     ((cvDispatch T true s).seq.paused, (cvDispatch T true s).eng.loopPointer)) = (true, 1) := by decide +kernel
/-- Vector Q36, tick 3: the CV loop path. -/
theorem test_cvTick_loop :
    (let s := withCtl ({ · with scaleCrush := 1, loopLength := 2, morphRate := 1 }) (withEng
        ({ · with morphCounter := 0 }) (poke .inbuf 0 300 (poke .morphbuf 0 600 base)))
     let t := cvTick T (setPins (draws 0 333 false 32) s)
     (memRead T .outbuf 0 t, t.eng.dacOut, memRead T .inbuf 0 t, memRead T .morphbuf 0 t, t.eng.glideRolling,
       t.eng.morphCounter)) = (298, 298, 333, 300, 300, 0) := by decide +kernel
/-- Vectors CA1, CA2, CA5. -/
theorem test_calTick :
    (let t := calTick T (setPins (draws 0 300 false 0) (withEng ({ · with loopPointer := 5 }) base))
     (memRead T .inbuf 5 t, memRead T .outbuf 5 t, t.eng.calAvg, t.eng.dacOut, t.eng.loopPointer)) =
      (300, 300, 300, 1023, 6) ∧ calValue T 300 401 = 350 ∧
    (calTick T (withCtl ({ · with loopLength := 2 }) (withEng ({ · with loopPointer := 1 }) base))).eng.loopPointer = 0 :=
  by decide +kernel
/-- Vectors T3, T6, T9: the head of an overflow. -/
theorem test_overflowHead_dropped_polls :
    (let s := withCtl ({ · with mode := .cv, gateEn := true }) (withSeq ({ · with busy := true }) base)
     let t := overflowHead (setPins (draws 0 0 true 0) s)
     (t.1, t.2.seq.trigPrev, t.2.seq.paused, t.2.seq.busy)) = (.dropped, true, false, true) ∧
    (let s := withCtl ({ · with mode := .audio, gateEn := true }) base
     let t := overflowHead (setPins (draws 0 0 true 0) s)
     (t.1, t.2.seq.trigPrev, t.2.seq.paused, t.2.seq.busy)) = (.processing, false, true, true) := by decide +kernel
/-- Vector T4: with `isr_period = 8` the first accepted tick does not process and the eighth does. -/
theorem test_overflowHead_octave :
    (overflowHead (setRate T 300 3 base)).1 = .accepted ∧ (overflowHead (setRate T 300 3 base)).2.seq.octCnt = 7 ∧
    (let s := withSeq ({ · with octCnt := 1 }) (setRate T 300 3 base)
     ((overflowHead s).1, (overflowHead s).2.seq.octCnt)) = (.processing, 8) := by decide +kernel

/-! ## Engines -/

/-- Vectors F1, F2, F8, F9, F12. -/
theorem test_tween : tween 100 101 128 = 100 ∧ tween 101 100 128 = 101 ∧ tween 1023 0 128 = 512 ∧
    tween 0 1023 255 = 1019 ∧ tween 0 257 255 = 255 := by decide
/-- Section 2.4, `alpha`: CUTOFF 64 gives 85, 100000 gives 254. -/
theorem test_alpha : resetAlpha { cutoff := 64 } = 85 ∧ resetAlpha { cutoff := 100000 } = 254 := by decide +kernel
/-- Vectors F21, F24, F25. -/
theorem test_filter :
    (let go := fun (q s4 : Sample) (r : BitVec 8) => stages (filter T q (withCtl ({ · with resonance := r })
        (withEng ({ · with fstate := ⟨512, 512, 512, 512, s4⟩ }) base))).2
     (go 700 300 128, go 100 900 255, go 1000 100 255)) =
      ([806, 657, 583, 547, 422], [1, 259, 387, 450, 677], [1022, 765, 637, 574, 335]) := by decide +kernel
/-- Vector RV5. -/
theorem test_reverb :
    (let s := withCtl ({ · with rvbFeedback := 128, rvbWet := 64, rvbDelay := 1 })
        (withEng ({ · with rvbWrite := 2047, rvbRead := 2046 }) (poke .rvb 2046 400 base))
     let r := reverb T 600 s
     (r.1, memRead T .rvb 2047 r.2, r.2.eng.rvbRead, r.2.eng.rvbWrite)) = (550, 500, 2047, 0) := by decide +kernel
/-- Vectors L3, L6b, L7b, L7c, L7d. -/
theorem test_easeIndex : easeIndex 5 3 = 160 ∧ easeIndex 515 10 = 128 ∧ easeIndex 128 15 = 1 ∧ easeIndex 127 15 = 0 ∧
    easeIndex 1 9 = 0 := by decide
/-- Section 2.6, `advance_ptr()`. -/
theorem test_nextPointer : nextPointer 0 255 = 0 ∧ nextPointer 1 0 = 0 ∧ nextPointer 255 253 = 254 ∧
    nextPointer 255 254 = 0 ∧ nextPointer 64 10 = 11 := by decide
/-- Vectors B5, B10. -/
theorem test_rebuildStep :
    (let t := rebuildStep T (withCtl ({ · with crush := 512 }) (withEng ({ · with rebuildIdx := 700 }) base))
     (memRead T .bittab 700 t, memRead T .bittab 701 t, t.eng.rebuildIdx)) = (645, 701, 701) := by decide +kernel
/-- Vectors Q3, Q11, Q17, Q20. -/
theorem test_quantize :
    (let go := fun (v : Sample) (sc : BitVec 5) (cr : BitVec 10) (off : BitVec 4) (j : Nat) =>
        (quantize T v (withCtl ({ · with scaleIndex := sc, scaleCrush := cr, noteOffset := off })
          (setPins (draws 0 0 false j) base))).1
     (go 1023 0 1 12 32, go 564 1 1 0 32, go 300 2 1023 0 33, go 300 1 32 0 0)) = (1023, 554, 298, 204) := by
  decide +kernel
/-- Vectors Q30, Q33, Q34. -/
theorem test_glideValue : glideValue T T.sentinel 255 300 = 300 ∧ glideValue T 500 255 516 = 500 ∧
    glideValue T 1023 255 0 = 962 := by decide +kernel
/-- Vectors H1, H4 and the map's edges. -/
theorem test_readMap : readMap T 0x312 base = 0xFFFF ∧ readMap T 0x313 base = 0 ∧ readMap T 0x30C base = 0 ∧
    readMap T 0x1FF base = 512 ∧ readMap T 0xFFF base = 0 := by decide +kernel
/-- Vector T14 and the saturation of 60_exceptions.md R216. -/
theorem test_finishTick : (finishTick 130 base).seq.framePeriod = 130 ∧
    (finishTick 70000 base).seq.framePeriod = 65535 := by decide +kernel

/-! ## Witnesses: concrete states and operands that meet the hypotheses of each obligation -/

theorem witness_DecodeOfEncodeIsTheInstruction :
    (Instr.setCrush 1).wellFormed = true ∧ (Instr.setCrush 1023).wellFormed = true ∧
    (Instr.setMode .idle true).wellFormed = true ∧ Instr.dry.wellFormed = true := by decide
theorem witness_DontCareBitsAreIgnored :
    opField 0x1FE00#20 = opField 0x10200#20 ∧ (0x1FE00#20 ≠ 0x10200#20) ∧
    ∀ k, k < operandWidth (opField 0x1FE00#20) → (0x1FE00#20).getLsbD k = (0x10200#20).getLsbD k := by decide
theorem witness_PlainSettersStoreTheirOperand :
    opField 0x300FF#20 = 0x3#4 ∧ opField 0x400FF#20 = 0x4#4 ∧ opField 0x500FF#20 = 0x5#4 ∧
    opField 0x2FF00#20 = 0x2#4 := by decide
theorem witness_SetCrushWritesBothControlsAndStartsRebuild :
    opField 0x10000#20 = 0x1#4 ∧ opField 0x1FFFF#20 = 0x1#4 ∧
    (∃ t, exec (.setCrush 1023) State.reset = .next t) ∧
    (withEng ({ · with rebuildIdx := 1023 }) State.reset).eng.rebuildIdx.toNat < 1024 :=
  ⟨by decide, by decide, ⟨_, rfl⟩, by decide⟩
theorem witness_SetRvbDelayMovesTheReadCursor : opField 0x60000#20 = 0x6#4 ∧ opField 0x6FFFF#20 = 0x6#4 := by decide
theorem witness_SetLoopLengthKeepsThePointerInTheLoop :
    opField 0x70000#20 = 0x7#4 ∧ opField 0x700FF#20 = 0x7#4 := by decide
theorem witness_SetMorphRateReloadsTheCounter : opField 0x80000#20 = 0x8#4 ∧ opField 0x8000F#20 = 0x8#4 := by decide
theorem witness_SetRootAndSetScaleSaturate : opField 0x9000D#20 = 0x9#4 ∧ opField 0xA0016#20 = 0xA#4 := by decide
theorem witness_SetRateLoadsPeriodAndDivisor : opField 0xB1FFF#20 = 0xB#4 := by decide
theorem witness_SetModePausesAndCentresOnIdle :
    Mode.audio ≠ .idle ∧ Mode.calibrate ≠ .idle ∧ opField 0xC0000#20 = 0xC#4 ∧ opField 0xC0007#20 = 0xC#4 := by decide
theorem witness_NopAndReservedChangeNothing :
    opField 0x0FFFF#20 = 0x0#4 ∧ opField 0xD1234#20 = 0xD#4 ∧ opField 0xE0000#20 = 0xE#4 ∧
    opField 0xFFFFF#20 = 0xF#4 := by decide

theorem witness_StepTakesTheNextEvent :
    (queued .cmd State.reset).env.queue = [.cmd] ∧ State.reset.env.queue = [] := ⟨rfl, rfl⟩
theorem witness_CommandStepRunsTheWaitingWord :
    (let s := queued .cmd (setCmdWord (some 0x300C8#20) State.reset)
     nextEvent s = .cmd ∧ s.env.cmdWord = some 0x300C8#20 ∧ cmdReady s = true) ∧
    (nextEvent (queued .cmd State.reset) = .cmd ∧ (queued .cmd State.reset).env.cmdWord = none) ∧
    (let s := queued .cmd (setCmdWord (some 0x300C8#20) (withSeq ({ · with busy := true }) State.reset))
     nextEvent s = .cmd ∧ cmdReady s = false) ∧
    (let s := queued .cmd (setCmdWord (some 0x300C8#20) (withEng ({ · with rebuildIdx := 1023 }) State.reset))
     nextEvent s = .cmd ∧ cmdReady s = false) ∧
    nextEvent (queued (.present 0x300C8#20) State.reset) = .present 0x300C8#20 :=
  ⟨⟨rfl, rfl, rfl⟩, ⟨rfl, rfl⟩, ⟨rfl, rfl⟩, ⟨rfl, rfl⟩, rfl⟩
theorem witness_ProcessingTickRunsTheSelectedInstruction :
    (let s := queued (.ovf (draws 700 0 true 0)) State.reset
     nextEvent s = .ovf (draws 700 0 true 0) ∧ s.seq.busy = false ∧ s.seq.octCnt = 1#6) := ⟨rfl, rfl, rfl⟩
theorem witness_AcceptedTickOnlyCountsDown :
    (let s := queued (.ovf (draws 700 0 true 0)) (withSeq ({ · with octCnt := 2 }) State.reset)
     nextEvent s = .ovf (draws 700 0 true 0) ∧ s.seq.busy = false ∧ 2 ≤ s.seq.octCnt.toNat) :=
  ⟨rfl, rfl, by decide⟩
theorem witness_OverflowWhileBusyIsDropped :
    (let s := queued (.ovf (draws 700 0 true 0)) (withSeq ({ · with busy := true }) State.reset)
     nextEvent s = .ovf (draws 700 0 true 0) ∧ s.seq.busy = true) := ⟨rfl, rfl⟩
theorem witness_OneTickInNProcesses :
    OctaveInRange State.reset ∧
    OctaveInRange (withSeq ({ · with octCnt := 32 }) (withCtl ({ · with isrPeriod := 32 }) State.reset)) := by
  unfold OctaveInRange; exact ⟨⟨by decide, by decide⟩, by decide, by decide⟩
theorem witness_ClockEdgeCountsOrOverflows :
    (let s := queued (.timerClock (draws 0 0 false 0)) (withCtl ({ · with timerPeriod := 2 }) State.reset)
     nextEvent s = .timerClock (draws 0 0 false 0) ∧ s.seq.timerCnt.toNat + 1 < s.ctl.timerPeriod.toNat) ∧
    (let s := queued (.timerClock (draws 0 0 false 0)) (withCtl ({ · with timerPeriod := 1 }) State.reset)
     nextEvent s = .timerClock (draws 0 0 false 0) ∧ s.ctl.timerPeriod.toNat ≤ s.seq.timerCnt.toNat + 1) :=
  ⟨⟨rfl, by decide⟩, rfl, by decide⟩
theorem witness_OverflowsAreOnePeriodApart :
    (let s := withCtl ({ · with timerPeriod := 2 }) State.reset
     s.seq.timerCnt = 0#16 ∧ 0 + 1 < s.ctl.timerPeriod.toNat) := ⟨rfl, by decide⟩
theorem witness_DoneRecordsTheFramePeriod :
    (let s := queued (.done 70000) (withSeq ({ · with busy := true }) State.reset)
     nextEvent s = .done 70000 ∧ s.seq.busy = true) ∧
    (nextEvent (queued (.done 65535) State.reset) = .done 65535 ∧ State.reset.seq.busy = false) :=
  ⟨⟨rfl, rfl⟩, rfl, rfl⟩
theorem witness_ReadReturnsTheMappedValue :
    (nextEvent (queued (.read 0x312#12) State.reset) = .read 0x312#12 ∧ State.reset.seq.busy = false) ∧
    (0 < 256 ∧ 255 < 256) ∧ (0 < 12 ∧ 11 < 12) ∧
    (0x30C ≤ (0x30C#12).toNat ∧ (0x30C#12).toNat ≤ 0x30F) ∧
    (0x30C ≤ (0x30F#12).toNat ∧ (0x30F#12).toNat ≤ 0x30F) ∧
    (0x313 ≤ (0x313#12).toNat) ∧ (0x313 ≤ (0xFFF#12).toNat) := ⟨⟨rfl, rfl⟩, by decide⟩
theorem witness_HostAndRebuildWaitWhileBusy :
    (let b := withSeq ({ · with busy := true }) State.reset
     b.seq.busy = true ∧ nextEvent (queued .cmd b) = .cmd ∧ nextEvent (queued .rebuild b) = .rebuild ∧
       ∃ a, nextEvent (queued (.read 0#12) b) = .read a) ∧
    (nextEvent (queued .rebuild State.reset) = .rebuild ∧ 1024 ≤ (queued .rebuild State.reset).eng.rebuildIdx.toNat) ∧
    (let s := queued .cmd (withEng ({ · with rebuildIdx := 1023 }) State.reset)
     nextEvent s = .cmd ∧ s.eng.rebuildIdx ≠ 1024#11) :=
  ⟨⟨rfl, rfl, rfl, _, rfl⟩, ⟨rfl, by decide⟩, rfl, by decide⟩
theorem witness_EachAgentWritesOnlyItsOwnState :
    (let s := queued (.ovf (draws 700 0 false 0)) State.reset
     (∃ d, nextEvent s = .ovf d) ∧ ∃ t, step s = .next t) ∧
    (let s := queued (.timerClock (draws 0 0 false 0)) (withCtl ({ · with timerPeriod := 2 }) State.reset)
     (∃ d, nextEvent s = .timerClock d) ∧ ∃ t, step s = .next t) ∧
    (let s := queued (.done 40) (withSeq ({ · with busy := true }) State.reset)
     (∃ us, nextEvent s = .done us) ∧ ∃ t, step s = .next t) ∧
    (let s := queued (.read 0x310#12) State.reset
     (∃ a, nextEvent s = .read a) ∧ ∃ t, step s = .next t) ∧
    (let s := queued (.present 0x300C8#20) State.reset
     (∃ w, nextEvent s = .present w) ∧ ∃ t, step s = .next t) ∧
    (let s := queued .rebuild (withEng ({ · with rebuildIdx := 0 }) State.reset)
     nextEvent s = .rebuild ∧ ∃ t, step s = .next t) ∧
    (let s := queued .cmd (setCmdWord (some 0x300C8#20) State.reset)
     nextEvent s = .cmd ∧ ∃ t, step s = .next t) :=
  ⟨⟨⟨_, rfl⟩, _, rfl⟩, ⟨⟨_, rfl⟩, _, rfl⟩, ⟨⟨_, rfl⟩, _, rfl⟩, ⟨⟨_, rfl⟩, _, rfl⟩, ⟨⟨_, rfl⟩, _, rfl⟩, ⟨rfl, _, rfl⟩,
    rfl, _, rfl⟩
theorem witness_DacHoldsBetweenProcessingTicks :
    (let s := withEng ({ · with dacOut := 700 }) (queued (.ovf (draws 0 0 false 0)) State.reset)
     ∃ t, step s = .next t ∧ t.eng.dacOut ≠ s.eng.dacOut) ∧
    (let s := queued (.ovf (draws 0 0 true 0)) (withSeq ({ · with busy := true }) State.reset)
     nextEvent s = .ovf (draws 0 0 true 0) ∧ (∃ t, step s = .next t) ∧ s.seq.busy = true) ∧
    (let s := queued (.ovf (draws 0 0 true 0)) (withSeq ({ · with octCnt := 2 }) State.reset)
     nextEvent s = .ovf (draws 0 0 true 0) ∧ (∃ t, step s = .next t) ∧ 2 ≤ s.seq.octCnt.toNat) ∧
    (let s := queued (.ovf (draws 0 0 true 0))
        (withCtl ({ · with mode := .cv }) (withSeq ({ · with cvDivCnt := 2 }) State.reset))
     nextEvent s = .ovf (draws 0 0 true 0) ∧ (∃ t, step s = .next t) ∧ s.ctl.mode = .cv ∧ 2 ≤ s.seq.cvDivCnt) ∧
    (let s := queued (.ovf (draws 0 0 false 0))
        (withCtl ({ · with mode := .cv, gateEn := true }) (withSeq ({ · with cvDivCnt := 1 }) State.reset))
     nextEvent s = .ovf (draws 0 0 false 0) ∧ (∃ t, step s = .next t) ∧ s.ctl.mode = .cv ∧ s.ctl.gateEn = true ∧
       s.seq.paused = true ∧ (draws 0 0 false 0).trig = false) :=
  ⟨⟨_, rfl, by decide⟩, ⟨rfl, ⟨_, rfl⟩, rfl⟩, ⟨rfl, ⟨_, rfl⟩, by decide⟩, ⟨rfl, ⟨_, rfl⟩, rfl, by decide⟩, rfl, ⟨_, rfl⟩, rfl, rfl, rfl,
    rfl⟩

/-- The reset state with a command placed is sound. -/
theorem sound_placed (w : CommandWord) : Sound Config.params (placeCommand w State.reset) where
  octave := ⟨(by decide : 1 ≤ (1#6).toNat), Nat.le_refl _⟩
  divider := ⟨Config.params.cvDiv_pos, Nat.le_refl _⟩
  cursors := (by decide : ((0#11).toNat + 2048 - (0#11).toNat) % 2048 = (0#11).toNat)
  pointer := .inl rfl
  morph := (by decide : (1#16).toNat ≤ 2 ^ (0#4).toNat)
  period := rfl
  divisor := (by decide : (1#6).toNat ∈ [1, 2, 4, 8, 16, 32])
  averages := ⟨.inl rfl, .inl rfl⟩
  registers := ⟨(by decide : (0#4).toNat ≤ 12), (by decide : (0#5).toNat ≤ 21), (by decide : (1024#11).toNat ≤ 1024),
    rfl⟩
  table i _ := ((BitVec.ofNat_toNat 10 i).trans (BitVec.setWidth_eq i)).trans (Config.params.stair_identity i).symm
  memory := rfl

theorem witness_ResetEventRestoresTheResetState :
    nextEvent (queued .rst (run 0x300C8#20 State.reset)) = .rst := rfl
theorem witness_EveryStepKeepsSoundness :
    Sound Config.params (State.reset.withFetchWord 24 0x300C8) ∧
    ∃ t, step (State.reset.withFetchWord 24 0x300C8) = .next t := ⟨sound_placed 0x300C8#20, _, rfl⟩
theorem witness_ReverbCursorsStayOneDelayApart :
    (let s := withCtl ({ · with rvbDelay := 2047 }) (withEng ({ · with rvbRead := 1 })
        (State.reset.withFetchWord 24 0x607FF))
     CursorsApart s ∧ ∃ t, step s = .next t) := ⟨by unfold CursorsApart; decide, _, rfl⟩
theorem witness_WholeTableIsTheStaircase :
    (let s := State.reset.withFetchWord 24 0x300C8
     Sound Config.params s ∧ ∃ t, step s = .next t ∧ t.eng.rebuildIdx = 1024#11 ∧
       (1023#10).toNat < t.eng.rebuildIdx.toNat) ∧
    (let s := State.reset.withFetchWord 24 0x10200
     Sound Config.params s ∧ ∃ t, step s = .next t ∧ t.eng.rebuildIdx.toNat ≤ (0#10).toNat) :=
  ⟨⟨sound_placed 0x300C8#20, _, rfl, rfl, by decide⟩, sound_placed 0x10200#20, _, rfl, by decide⟩
theorem witness_RebuildStepWritesOneEntry :
    (let s := queued .rebuild (withEng ({ · with rebuildIdx := 1023 }) State.reset)
     nextEvent s = .rebuild ∧ s.seq.busy = false ∧ s.eng.rebuildIdx.toNat < 1024 ∧
       s.mem.wf Config.params = true) := ⟨rfl, rfl, by decide, rfl⟩
theorem witness_RebuildCompletesIn1024Steps : base.mem.wf T = true ∧ base.seq.busy = false ∧ 0 < 1024 ∧ 1023 < 1024 :=
  ⟨rfl, rfl, by decide⟩
theorem witness_TweenStaysBetweenItsArguments :
    (let d := fun (a b : Sample) => max a.toNat b.toNat - min a.toNat b.toNat
     d 512 512 = 0 ∧ (0#10).toNat < (257#10).toNat ∧ (0#10).toNat < (1023#10).toNat ∧
       (1 ≤ d 512 513 ∧ d 512 513 ≤ 256) ∧ (1 ≤ d 0 256 ∧ d 0 256 ≤ 256) ∧ d 10 12 * (100#8).toNat < 256) := by decide
theorem witness_AlphaIsFixedByTheCutoff :
    (∃ t, step (queued .rst State.reset) = .next t) ∧ ∃ t, step (State.reset.withFetchWord 24 0x300C8) = .next t :=
  ⟨⟨_, rfl⟩, _, rfl⟩
theorem witness_ReverbReadsWritesMixesAdvances : base.mem.wf T = true ∧ (poke .rvb 2047 500 base).mem.wf T = true := by
  decide +kernel
theorem witness_ReverbEchoesAfterTheDelay :
    (base.mem.wf T = true ∧ CursorsApart base) ∧
    (let s := run 0x607FF#20 base
     s.mem.wf T = true ∧ CursorsApart s ∧ s.ctl.rvbDelay = 2047#11) := by
  unfold CursorsApart; decide +kernel
theorem witness_EasingIndexIsAtMost256 : (0 ≤ 15 ∧ 0 ≤ 2 ^ 0) ∧ (15 ≤ 15 ∧ 32768 ≤ 2 ^ 15) := by decide
theorem witness_PointerAdvancesInsideTheLoop :
    base.ctl.loopLength = 0#8 ∧ (run 0x700FF#20 base).ctl.loopLength ≠ 0#8 := by decide +kernel
theorem witness_MorphEventCopiesThenOverwrites :
    0 < 256 ∧ 255 < 256 ∧ base.mem.wf T = true ∧ base.eng.morphCounter ≠ 0#16 ∧
    (withEng ({ · with morphCounter := 0 }) base).eng.morphCounter = 0#16 := by decide +kernel
theorem witness_AudioTickWithoutLoop :
    State.reset.mem.wf Config.params = true ∧ State.reset.ctl.loopLength = 0#8 := ⟨rfl, rfl⟩
theorem witness_AudioTickWithLoop :
    (let s := withEng ({ · with loopPointer := 1 }) (withCtl ({ · with loopLength := 2 }) State.reset)
     s.mem.wf Config.params = true ∧ s.ctl.loopLength ≠ 0#8 ∧ s.eng.loopPointer.toNat < s.ctl.loopLength.toNat) :=
  ⟨rfl, by decide, by decide⟩
theorem witness_MorphCycleCloses :
    (let s := withCtl ({ · with loopLength := 255 }) (run 0x8000F#20 base)
     s.mem.wf T = true ∧ s.ctl.loopLength ≠ 0#8 ∧ s.eng.loopPointer = 0#8 ∧
       s.eng.morphCounter.toNat = 2 ^ s.ctl.morphRate.toNat) ∧
    ((AdcPin.audio = .audio ∧ audioTick T = audioTick T) ∨ (AdcPin.audio = .cv ∧ audioTick T = cvTick T)) ∧
    ((AdcPin.cv = .audio ∧ cvTick T = audioTick T) ∨ (AdcPin.cv = .cv ∧ cvTick T = cvTick T)) :=
  ⟨by decide +kernel, .inl ⟨rfl, rfl⟩, .inr ⟨rfl, rfl⟩⟩
theorem witness_GlideIsTheFlooredMean :
    Primed T base.eng.glideRolling ∧ Primed T (withEng ({ · with glideRolling := 1023 }) base).eng.glideRolling :=
  ⟨.inl rfl, .inr (by decide)⟩
theorem witness_WalkDownFindsTheLargestPermitted : 0 ≤ 11 ∧ 11 ≤ 11 := by decide
theorem witness_FreeCvDispatchDividesThenRuns :
    (let s := withSeq ({ · with cvDivCnt := 2 }) State.reset
     s.mem.wf Config.params = true ∧ 1 ≤ s.seq.cvDivCnt ∧ 2 ≤ s.seq.cvDivCnt) ∧
    (let s := withSeq ({ · with cvDivCnt := 1 }) State.reset
     s.mem.wf Config.params = true ∧ 1 ≤ s.seq.cvDivCnt ∧ s.seq.cvDivCnt = 1 ∧ s.ctl.loopLength = 0) ∧
    (let s := withEng ({ · with loopPointer := 254 }) (withCtl ({ · with loopLength := 255 })
        (withSeq ({ · with cvDivCnt := 1 }) State.reset))
     s.mem.wf Config.params = true ∧ s.seq.cvDivCnt = 1 ∧ s.ctl.loopLength ≠ 0 ∧
       s.eng.loopPointer.toNat < s.ctl.loopLength.toNat) :=
  ⟨⟨rfl, by decide, by decide⟩, ⟨rfl, by decide, rfl, rfl⟩, rfl, rfl, by decide, by decide⟩
theorem witness_GatedCvDispatchRunsOnceThenPauses :
    (let s := withSeq ({ · with cvDivCnt := 2 }) State.reset
     s.mem.wf Config.params = true ∧ 1 ≤ s.seq.cvDivCnt ∧ 2 ≤ s.seq.cvDivCnt) ∧
    (let s := withSeq ({ · with cvDivCnt := 1 }) State.reset
     s.mem.wf Config.params = true ∧ 1 ≤ s.seq.cvDivCnt ∧ s.seq.cvDivCnt = 1 ∧ s.seq.paused = true) ∧
    (let s := withSeq ({ · with cvDivCnt := 1, paused := false }) State.reset
     s.mem.wf Config.params = true ∧ 1 ≤ s.seq.cvDivCnt ∧ s.seq.cvDivCnt = 1 ∧ s.seq.paused = false ∧
       s.ctl.loopLength = 0) ∧
    (let s := withEng ({ · with loopPointer := 254 }) (withCtl ({ · with loopLength := 255 })
        (withSeq ({ · with cvDivCnt := 1, paused := false }) State.reset))
     s.mem.wf Config.params = true ∧ 1 ≤ s.seq.cvDivCnt ∧ s.seq.cvDivCnt = 1 ∧ s.seq.paused = false ∧
       s.ctl.loopLength ≠ 0 ∧ s.eng.loopPointer.toNat < s.ctl.loopLength.toNat) :=
  ⟨⟨rfl, by decide, by decide⟩, ⟨rfl, by decide, rfl, rfl⟩, ⟨rfl, by decide, rfl, rfl, rfl⟩, rfl, by decide, rfl, rfl,
    by decide, by decide⟩
theorem witness_CalibrationTickEchoesAndDrivesFullScale :
    (State.reset.mem.wf Config.params = true ∧ Primed Config.params State.reset.eng.calAvg ∧
      State.reset.eng.calAvg = Config.params.sentinel) ∧
    Primed Config.params (withEng ({ · with calAvg := 1023 }) State.reset).eng.calAvg := ⟨⟨rfl, .inl rfl, rfl⟩, .inr (by decide)⟩

end Sys2Proof.Tests
end

section
/-! PROOFS. The reset state: spec/10_state.md R48. -/

namespace Sys2Proof.Machine

/-- The pole weight's quotient stays below 255 for every cutoff (42_filter_chain.md R121). -/
theorem alphaQuotient_le (c : Nat) : 255 * c / (128 + c) ≤ 254 :=
  Nat.le_of_lt_succ ((Nat.div_lt_iff_lt_mul (by omega)).2 (by omega))

/-- No bit of the quotient is lost in the 8-bit register. -/
theorem resetAlpha_toNat (P : Params) : (resetAlpha P).toNat = 255 * P.cutoff / (128 + P.cutoff) :=
  (BitVec.toNat_ofNat _ _).trans (Nat.mod_eq_of_lt (Nat.lt_of_le_of_lt (alphaQuotient_le P.cutoff) (by decide)))

/-- After reset every memory reads as its unlisted contents: no entry is listed. -/
@[simp] theorem memRead_resetWith (P Q : Params) (M : Ram) (i : Nat) :
    memRead P M i (State.resetWith Q) = unlisted P M i := by
  cases M <;> rfl

@[simp] theorem memRead_reset (P : Params) (M : Ram) (i : Nat) :
    memRead P M i State.reset = unlisted P M i :=
  memRead_resetWith P Config.params M i

/-- BITTAB's unlisted contents are the identity on its indices. -/
theorem unlisted_bittab_toNat (P : Params) {i : Nat} (hi : i < 1024) : (unlisted P .bittab i).toNat = i :=
  (BitVec.toNat_ofNat _ _).trans (Nat.mod_eq_of_lt hi)

/-- Settles O31: the register rows are the fields of the three reset records, `alpha` by its bound, and the memory
rows are what a memory without entries reads as. -/
theorem resetStateIsTheTable : Obligations.ResetStateIsTheTable := by
  unfold Obligations.ResetStateIsTheTable
  refine ⟨?control, ?sequencing, ?engine, ?bittab, ?samples⟩
  case control =>
    have halpha : State.reset.ctl.alpha.toNat = 255 * Config.params.cutoff / (128 + Config.params.cutoff) :=
      resetAlpha_toNat Config.params
    exact ⟨rfl, rfl, rfl, rfl, rfl, halpha, rfl, rfl, rfl, rfl, rfl, rfl, rfl, rfl, rfl, rfl, rfl⟩
  case sequencing => exact ⟨rfl, rfl, rfl, rfl, rfl, rfl, rfl⟩
  case engine => exact ⟨rfl, rfl, rfl, rfl, rfl, rfl, rfl, rfl, rfl, rfl⟩
  case bittab =>
    intro i hi
    rw [memRead_reset]
    exact unlisted_bittab_toNat Config.params hi
  case samples =>
    intro i
    simp only [memRead_reset, unlisted, and_self]

end Sys2Proof.Machine
end

section
/-! PROOFS. The decoder: spec/30_encoding.md R72, R74, R75, R78. -/

namespace Sys2Proof.Machine

/-! ## Don't-care bits (R74) -/

/-- Expanding a pseudo-command does not change what it does (30_encoding.md R78). -/
@[simp] theorem exec_expand (i : Instr) (s : State) : exec i.expand s = exec i s := by
  cases i <;> rfl

/-- The rows of format C name no pseudo-command. -/
@[simp] theorem expand_decodeByOpcode (w : CommandWord) : (decodeByOpcode w).expand = decodeByOpcode w := by
  unfold decodeByOpcode
  split <;> rfl

/-- Expanded, the four full-word rows of format P answer what the rows of format C do: the decoder is the opcode's
row. -/
theorem expand_decodeCommand (w : CommandWord) : (decodeCommand w).expand = decodeByOpcode w := by
  unfold decodeCommand
  split
  case isTrue h => subst h; rfl
  split
  case isTrue h => subst h; rfl
  split
  case isTrue h => subst h; rfl
  split
  case isTrue h => subst h; rfl
  case isFalse => exact expand_decodeByOpcode w

/-- The words have the same low `n` bits. -/
def AgreeBelow (n : Nat) (w v : CommandWord) : Prop := ∀ k, k < n → w.getLsbD k = v.getLsbD k

/-- Every field inside the bits two words share is the same in both. -/
theorem AgreeBelow.extractLsb'_eq {n : Nat} {w v : CommandWord} (h : AgreeBelow n w v) {start len : Nat}
    (hle : start + len ≤ n) : w.extractLsb' start len = v.extractLsb' start len := by
  refine BitVec.eq_of_getLsbD_eq fun i hi => ?_
  rw [BitVec.getLsbD_extractLsb', BitVec.getLsbD_extractLsb', h (start + i) (by omega)]

theorem AgreeBelow.dataField_eq {n : Nat} {w v : CommandWord} (h : AgreeBelow n w v) {len : Nat} (hle : len ≤ n) :
    dataField len w = dataField len v :=
  h.extractLsb'_eq (by omega)

/-- The row of an opcode reads only its operand bits: every field it takes lies below the operand's width. -/
theorem decodeByOpcode_congr {w v : CommandWord} (hop : opField w = opField v)
    (h : AgreeBelow (operandWidth (opField w)) w v) : decodeByOpcode w = decodeByOpcode v := by
  unfold decodeByOpcode
  unfold operandWidth at h
  rw [← hop]
  generalize (opField w).toNat = op at h ⊢
  split
  · rfl
  · exact congrArg Instr.setCrush (h.dataField_eq (by decide))
  · exact congrArg Instr.setGlide (h.dataField_eq (by decide))
  · exact congrArg Instr.setResonance (h.dataField_eq (by decide))
  · exact congrArg Instr.setRvbFeedback (h.dataField_eq (by decide))
  · exact congrArg Instr.setRvbWet (h.dataField_eq (by decide))
  · exact congrArg Instr.setRvbDelay (h.dataField_eq (by decide))
  · exact congrArg Instr.setLoopLength (h.dataField_eq (by decide))
  · exact congrArg Instr.setMorphRate (h.dataField_eq (by decide))
  · exact congrArg Instr.setRoot (h.dataField_eq (by decide))
  · exact congrArg Instr.setScale (h.dataField_eq (by decide))
  · exact congrArg₂ Instr.setRate (h.dataField_eq (by decide)) (h.extractLsb'_eq (by decide))
  · exact congrArg₂ (fun b => Instr.setMode (modeOfBits b)) (h.dataField_eq (by decide)) (h 2 (by decide))
  · rfl
  · rfl
  · rfl

/-- Settles O3: expanded, a word decodes to its opcode's row, which reads only the operand bits; and an instruction
runs as its expansion does. -/
theorem dontCareBitsAreIgnored : Obligations.DontCareBitsAreIgnored := by
  unfold Obligations.DontCareBitsAreIgnored
  intro w v hop hbits
  have hexpand : (decodeCommand w).expand = (decodeCommand v).expand :=
    calc (decodeCommand w).expand
        = decodeByOpcode w := expand_decodeCommand w
      _ = decodeByOpcode v := decodeByOpcode_congr hop hbits
      _ = (decodeCommand v).expand := (expand_decodeCommand v).symm
  refine ⟨hexpand, fun s => ?_⟩
  calc exec (decodeCommand w) s
      = exec (decodeCommand w).expand s := (exec_expand _ s).symm
    _ = exec (decodeCommand v).expand s := by rw [hexpand]
    _ = exec (decodeCommand v) s := exec_expand _ s

/-! ## The mode field and the dispatch selector (R75) -/

/-- No value of the `mode` field is lost: the four names are its four values. -/
@[simp] theorem modeBits_modeOfBits (b : BitVec 2) : modeBits (modeOfBits b) = b := by
  revert b
  decide

/-- The selector is `gate_en` above the `mode` field. -/
theorem selectorOf_toNat (gate : Bool) (m : Mode) :
    (selectorOf gate m).toNat = (if gate then 4 else 0) + (modeBits m).toNat := by
  cases gate <;> cases m <;> rfl

/-- Settles O5: the mode names are the field's four values, and each of the two gate values gives the rows of the
table. -/
theorem selectorsDecodeByTheTable : Obligations.SelectorsDecodeByTheTable := by
  unfold Obligations.SelectorsDecodeByTheTable
  refine ⟨⟨rfl, rfl, rfl, rfl⟩, ?formed, ?decoded⟩
  case formed =>
    intro gate b
    rw [selectorOf_toNat, modeBits_modeOfBits]
  case decoded =>
    intro gate
    cases gate
    · exact ⟨rfl, rfl, rfl, rfl⟩
    · exact ⟨rfl, rfl, rfl, rfl⟩

end Sys2Proof.Machine
end

section
/-! PROOFS. The tick dispatcher: spec/40_tick_dispatcher.md R97, R103. -/

namespace Sys2Proof.Machine

/-! ## An Idle tick (R97) -/

/-- Settles O57: the Idle selector's whole effect is to drive the center value. -/
theorem idleTickDrivesTheCenter : Obligations.IdleTickDrivesTheCenter := by
  unfold Obligations.IdleTickDrivesTheCenter
  intro s
  exact (rfl : exec .dispatchIdle s = .next (setDac center s))

/-! ## Commands do not write the output register (R103) -/

/-- The outcome is a next state, in which `dac_out` is as it was in `s`. -/
def HoldsDac (s : State) (o : Host.Outcome State Fault Refusal) : Prop :=
  ∃ t, o = .next t ∧ t.eng.dacOut = s.eng.dacOut

theorem HoldsDac.dacOut_eq {s t : State} {o : Host.Outcome State Fault Refusal} (h : HoldsDac s o)
    (ht : o = .next t) : t.eng.dacOut = s.eng.dacOut := by
  obtain ⟨u, hu, hdac⟩ := h
  cases hu.symm.trans ht
  exact hdac

/-- No row of format C names a tick engine, and every command leaves the output register alone. -/
theorem exec_decodeByOpcode_holdsDac (w : CommandWord) (s : State) : HoldsDac s (exec (decodeByOpcode w) s) := by
  unfold decodeByOpcode
  split <;> exact ⟨_, rfl, rfl⟩

/-- A command word runs as its opcode's row does, the four full-word rows of format P included. -/
theorem exec_command_holdsDac (w : CommandWord) (s : State) : HoldsDac s (exec (decode (.command w)) s) := by
  have hrow : exec (decode (.command w)) s = exec (decodeByOpcode w) s :=
    calc exec (decodeCommand w) s
        = exec (decodeCommand w).expand s := (exec_expand _ s).symm
      _ = exec (decodeByOpcode w) s := by rw [expand_decodeCommand]
  rw [hrow]
  exact exec_decodeByOpcode_holdsDac w s

theorem commandStep_holdsDac (s : State) : HoldsDac s (commandStep s) := by
  unfold commandStep
  split
  · exact ⟨s, rfl, rfl⟩
  · next w _ =>
    split
    · exact exec_command_holdsDac w (setCmdWord none s)
    · exact ⟨s, rfl, rfl⟩

@[simp] theorem presentCommand_eng (w : CommandWord) (s : State) : (presentCommand w s).eng = s.eng := by
  unfold presentCommand
  split <;> rfl

@[simp] theorem timerExpires_consumeEvent (s : State) : timerExpires (consumeEvent s) = timerExpires s := by
  simp only [timerExpires, consumeEvent_ctl, consumeEvent_seq]

/-- A step that delivers no overflow and is no reset leaves the output register alone. -/
theorem step_holdsDac {s : State} (hrst : nextEvent s ≠ .rst) (hovf : ∀ d, nextEvent s ≠ .ovf d)
    (hclk : ∀ d, nextEvent s = .timerClock d → timerExpires s = false) : HoldsDac s (step s) := by
  rcases step_cases s with ⟨d, he, -⟩ | ⟨d, he, hs⟩ | ⟨us, -, hs⟩ | ⟨w, -, hs⟩ | ⟨-, hs⟩ | ⟨a, -, hs⟩ | ⟨-, hs⟩ | ⟨he, -⟩
  · exact absurd he (hovf d)
  · refine ⟨countTimer (consumeEvent s), ?_, by simp⟩
    rw [hs, clockEdge_eq, timerExpires_consumeEvent, hclk d he, if_neg Bool.false_ne_true]
  · exact ⟨_, hs, by split <;> simp⟩
  · exact ⟨_, hs, by simp⟩
  · obtain ⟨t, ht, hdac⟩ := commandStep_holdsDac (consumeEvent s)
    exact ⟨t, hs.trans ht, by simpa using hdac⟩
  · exact ⟨_, hs, by split <;> simp⟩
  · exact ⟨_, hs, by split <;> simp⟩
  · exact absurd he hrst

/-! ## Overflows that run no engine (R103) -/

@[simp] theorem acceptedHead_ctl (s : State) : (acceptedHead s).ctl = s.ctl := by simp [acceptedHead]
@[simp] theorem acceptedHead_eng (s : State) : (acceptedHead s).eng = s.eng := by simp [acceptedHead]
@[simp] theorem acceptedHead_paused (s : State) :
    (acceptedHead s).seq.paused = (overflowPoll s).seq.paused := by simp [acceptedHead]
@[simp] theorem overflowPoll_cvDivCnt (s : State) : (overflowPoll s).seq.cvDivCnt = s.seq.cvDivCnt := by
  rw [overflowPoll_seq]
@[simp] theorem acceptedHead_cvDivCnt (s : State) : (acceptedHead s).seq.cvDivCnt = s.seq.cvDivCnt := by
  simp [acceptedHead]

/-- Without a rising edge the poll leaves `paused` (R92). -/
theorem overflowPoll_paused_of_noEdge {s : State} (h : risingEdge s.seq.trigPrev (trigRead s) = false) :
    (overflowPoll s).seq.paused = s.seq.paused := by
  unfold overflowPoll
  split
  · simp [h]
  · rfl

theorem tickBody_of_cv (P : Params) {s : State} (h : s.ctl.mode = .cv) :
    tickBody P s = cvDispatch P s.ctl.gateEn s := by
  unfold tickBody
  rw [h]

/-- A CV dispatch that the divider or the gate stops writes no engine register (R99). -/
theorem cvDispatch_eng_of_stopped (P : Params) {gated : Bool} {s : State}
    (h : 2 ≤ s.seq.cvDivCnt ∨ (gated = true ∧ s.seq.paused = true)) : (cvDispatch P gated s).eng = s.eng := by
  rcases cvDispatch_cases P gated s with ⟨-, e⟩ | ⟨-, -, -, e⟩ | ⟨hexp, hopen, -⟩
  · rw [e]
  · rw [e]
  · rcases h with hdiv | ⟨hg, hp⟩
    · omega
    · simp [hg, hp] at hopen

/-- A dropped tick, and an accepted one whose octave counter has not run down, write no engine register. -/
theorem overflowResult_eng_of_not_processing {s : State} (h : s.seq.busy = true ∨ s.seq.octCnt - 1 ≠ 0) :
    (overflowResult s).eng = s.eng := by
  unfold overflowResult
  by_cases hb : s.seq.busy = true
  · rw [if_pos hb, overflowPoll_eng]
  · rw [if_neg hb, if_neg (h.resolve_left hb), acceptedHead_eng]

/-- In CV mode an overflow writes no engine register where the divider, or the gate on a paused engine without a
rising edge, stops the engine. -/
theorem overflowResult_eng_of_cv_stopped {s : State} (hm : s.ctl.mode = .cv)
    (h : 2 ≤ s.seq.cvDivCnt ∨
      (s.ctl.gateEn = true ∧ s.seq.paused = true ∧ risingEdge s.seq.trigPrev (trigRead s) = false)) :
    (overflowResult s).eng = s.eng := by
  by_cases hproc : s.seq.busy = true ∨ s.seq.octCnt - 1 ≠ 0
  · exact overflowResult_eng_of_not_processing hproc
  · obtain ⟨hb, ho⟩ := not_or.1 hproc
    have hstop : 2 ≤ (acceptedHead s).seq.cvDivCnt ∨
        ((acceptedHead s).ctl.gateEn = true ∧ (acceptedHead s).seq.paused = true) := by
      rw [acceptedHead_cvDivCnt, acceptedHead_ctl, acceptedHead_paused]
      exact h.imp_right fun ⟨hg, hp, hedge⟩ => ⟨hg, (overflowPoll_paused_of_noEdge hedge).trans hp⟩
    rw [overflowResult, if_neg hb, if_pos (not_not.1 ho), tickBody_of_cv _ (by rw [acceptedHead_ctl, hm]),
      cvDispatch_eng_of_stopped _ hstop, acceptedHead_eng]

/-- What an OVF step leaves. -/
theorem step_of_ovf {s : State} {d : Draws} (h : nextEvent s = .ovf d) :
    step s = .next (overflowResult (setPins d (consumeEvent s))) := by
  rw [step, h]
  exact overflow_eq _

/-- Settles O29: only the tick engines and reset write `dac_out`, and an overflow runs no engine where it is dropped,
does not process, or is stopped in CV mode. -/
theorem dacHoldsBetweenProcessingTicks : Obligations.DacHoldsBetweenProcessingTicks := by
  unfold Obligations.DacHoldsBetweenProcessingTicks
  refine ⟨?writers, ?stopped⟩
  case writers =>
    intro s t ht hne
    by_contra hno
    obtain ⟨hrst, hovf, hclk⟩ : nextEvent s ≠ .rst ∧ (∀ d, nextEvent s ≠ .ovf d) ∧
        ∀ d, nextEvent s = .timerClock d → timerExpires s = false := by
      simpa [timerExpires] using hno
    exact hne ((step_holdsDac hrst hovf hclk).dacOut_eq ht)
  case stopped =>
    intro s t d he ht h
    obtain rfl := Host.Outcome.next.inj ((step_of_ovf he).symm.trans ht)
    have heng : (overflowResult (setPins d (consumeEvent s))).eng = (setPins d (consumeEvent s)).eng := by
      rcases h with hbusy | hoct | ⟨hmode, hstop⟩
      · exact overflowResult_eng_of_not_processing (.inl (by simpa using hbusy))
      · have hne : s.seq.octCnt - 1 ≠ 0 := by bv_omega
        exact overflowResult_eng_of_not_processing (.inr (by simpa using hne))
      · refine overflowResult_eng_of_cv_stopped (by simpa using hmode) ?_
        simp only [setPins_seq, setPins_ctl, consumeEvent_seq, consumeEvent_ctl]
        refine hstop.imp_right fun ⟨hg, hp, htrig⟩ => ⟨hg, hp, ?_⟩
        have hpin : trigRead (setPins d (consumeEvent s)) = d.trig := rfl
        rcases htrig with hlow | hhigh
        · simp [risingEdge, hpin, hlow]
        · simp [risingEdge, hhigh]
    rw [heng, setPins_eng, consumeEvent_eng]

end Sys2Proof.Machine
end

section
/-! PROOFS. Bit reduction: spec/41_bit_reduction.md R112. -/

namespace Sys2Proof.Machine

/-! ## Command words (R72, R78) -/

/-- A word runs as its opcode's row does, the pseudo-command rows included. -/
theorem exec_decode_command (w : CommandWord) (s : State) :
    exec (decode (.command w)) s = exec (decodeByOpcode w) s :=
  calc exec (decodeCommand w) s
      = exec (decodeCommand w).expand s := (exec_expand _ s).symm
    _ = exec (decodeByOpcode w) s := by rw [expand_decodeCommand]

theorem decodeByOpcode_of_setCrush {w : CommandWord} (h : opField w = 0x1#4) :
    decodeByOpcode w = .setCrush (dataField 10 w) := by
  unfold decodeByOpcode
  rw [h]
  rfl

/-! ## SET_CRUSH (R112) -/

@[simp] theorem exec_setCrush (d : BitVec 10) (s : State) : exec (.setCrush d) s = .next (startRebuild d s) := rfl

/-- The command port is not ready before the rebuild front has reached the end of the table (R112, R195). -/
theorem cmdReady_eq_false_of_rebuildIdx_lt {s : State} (h : s.eng.rebuildIdx.toNat < 1024) : cmdReady s = false := by
  have hidx : s.eng.rebuildIdx ≠ rebuildIdle := by bv_omega
  simp [cmdReady, hidx]

theorem cmdReady_startRebuild (d : BitVec 10) (s : State) : cmdReady (startRebuild d s) = false :=
  cmdReady_eq_false_of_rebuildIdx_lt (by simp)

/-- Settles O7: SET_CRUSH and every word with its opcode run `startRebuild`, which puts the rebuild front at 0, and the
port is not ready while the front is below 1024. -/
theorem setCrushWritesBothControlsAndStartsRebuild : Obligations.SetCrushWritesBothControlsAndStartsRebuild := by
  unfold Obligations.SetCrushWritesBothControlsAndStartsRebuild
  refine ⟨exec_setCrush, ?word, ?notReady, fun _ => cmdReady_eq_false_of_rebuildIdx_lt⟩
  case word =>
    intro w s hop
    rw [exec_decode_command, decodeByOpcode_of_setCrush hop]
    exact exec_setCrush (dataField 10 w) s
  case notReady =>
    intro d s t ht
    obtain rfl := Host.Outcome.next.inj ((exec_setCrush d s).symm.trans ht)
    exact cmdReady_startRebuild d s

end Sys2Proof.Machine
end

section
/-! PROOFS. The weighted average: spec/42_filter_chain.md R120, R127. -/

namespace Sys2Proof.Machine

/-! ## The weighted average on naturals (R120) -/

theorem tween_of_le {a b : Nat} (h : a ≤ b) (w : Nat) : tween a b w = a + (b - a) * w / 256 := if_pos h

/-- Downwards the formula also covers equal arguments, where both branches give `a`. -/
theorem tween_of_ge {a b : Nat} (h : b ≤ a) (w : Nat) : tween a b w = a - (a - b) * w / 256 := by
  rcases h.eq_or_lt with rfl | hlt
  · simp [tween]
  · exact if_neg (Nat.not_le.2 hlt)

/-- The step of the average is at most the distance: `(d * w) >> 8 <= d` (R127). -/
theorem mul_weight_div_le (d : Nat) {w : Nat} (hw : w < 256) : d * w / 256 ≤ d :=
  Nat.div_le_of_le_mul (by rw [Nat.mul_comm 256]; exact Nat.mul_le_mul_left d hw.le)

theorem min_le_tween (a b : Nat) {w : Nat} (hw : w < 256) : min a b ≤ tween a b w := by
  rcases le_total a b with h | h
  · rw [tween_of_le h]
    omega
  · rw [tween_of_ge h]
    have := mul_weight_div_le (a - b) hw
    omega

theorem tween_le_max (a b : Nat) {w : Nat} (hw : w < 256) : tween a b w ≤ max a b :=
  tween_le w (le_max_left a b) (le_max_right a b) hw

/-- Where distance times weight stays below 256 the floored step is 0 (R127(e)). -/
theorem tween_eq_left {a b w : Nat} (h : (max a b - min a b) * w < 256) : tween a b w = a := by
  rcases le_total a b with hle | hle
  · rw [max_eq_right hle, min_eq_left hle] at h
    rw [tween_of_le hle, Nat.div_eq_of_lt h, Nat.add_zero]
  · rw [max_eq_left hle, min_eq_right hle] at h
    rw [tween_of_ge hle, Nat.div_eq_of_lt h, Nat.sub_zero]

/-- The step of weight 255 falls short of the distance by `ceil(d / 256)` (R127(c)). -/
theorem tween_255_of_le {a b : Nat} (h : a ≤ b) : tween a b 255 + (b - a + 255) / 256 = b := by
  rw [tween_of_le h]
  omega

theorem tween_255_of_ge {a b : Nat} (h : b ≤ a) : tween a b 255 = b + (a - b + 255) / 256 := by
  rw [tween_of_ge h]
  omega

/-! ## The weighted average of samples -/

/-- The average of two samples is a sample: no bit of it is lost (R127(a)). -/
@[simp] theorem blend_toNat (v1 v2 : Sample) (w : BitVec 8) :
    (blend v1 v2 w).toNat = tween v1.toNat v2.toNat w.toNat := by
  have hle : tween v1.toNat v2.toNat w.toNat ≤ 1023 :=
    tween_le _ (Nat.le_of_lt_succ v1.isLt) (Nat.le_of_lt_succ v2.isLt) w.isLt
  exact (BitVec.toNat_ofNat _ _).trans (Nat.mod_eq_of_lt (Nat.lt_succ_of_le hle))

theorem blend_eq_left {v1 v2 : Sample} {w : BitVec 8}
    (h : (max v1.toNat v2.toNat - min v1.toNat v2.toNat) * w.toNat < 256) : blend v1 v2 w = v1 :=
  BitVec.eq_of_toNat_eq ((blend_toNat v1 v2 w).trans (tween_eq_left h))

theorem blend_zero (v1 v2 : Sample) : blend v1 v2 0#8 = v1 := blend_eq_left (by simp)

theorem blend_self (v : Sample) (w : BitVec 8) : blend v v w = v := blend_eq_left (by simp)

/-- Settles O39: the average of samples is `tween` of their values, the formula itself. -/
theorem tweenIsTheSignSplitAverage : Obligations.TweenIsTheSignSplitAverage := by
  unfold Obligations.TweenIsTheSignSplitAverage
  intro v1 v2 w
  rw [blend_toNat]
  split
  case isTrue h => exact tween_of_le h _
  case isFalse h => exact tween_of_ge (Nat.le_of_not_le h) _

/-- Settles O40: the bounds and (c) by the direction of the average; (b) and (d) are cases of (e). -/
theorem tweenStaysBetweenItsArguments : Obligations.TweenStaysBetweenItsArguments := by
  unfold Obligations.TweenStaysBetweenItsArguments
  intro v1 v2 w y d y255
  have hy : y = tween v1.toNat v2.toNat w.toNat := blend_toNat v1 v2 w
  have hy255 : y255 = tween v1.toNat v2.toNat 255 := blend_toNat v1 v2 255#8
  have hd : d ≤ 1023 := (Nat.sub_le _ _).trans
    (max_le (Nat.le_of_lt_succ v1.isLt) (Nat.le_of_lt_succ v2.isLt))
  refine ⟨?bounds, blend_zero v1 v2, ?equal, ?upward, ?downward, by omega, by omega, blend_self v1 w, blend_eq_left⟩
  case bounds =>
    rw [hy]
    exact ⟨min_le_tween _ _ w.isLt, tween_le_max _ _ w.isLt⟩
  case equal =>
    intro h0
    have heq : v1 = v2 := BitVec.eq_of_toNat_eq (by omega)
    exact congrArg BitVec.toNat (heq ▸ blend_self v1 255#8)
  case upward =>
    intro hlt
    have hdist : d = v2.toNat - v1.toNat := by omega
    rw [hy255, hdist]
    exact tween_255_of_le hlt.le
  case downward =>
    intro hlt
    have hdist : d = v1.toNat - v2.toNat := by omega
    rw [hy255, hdist]
    exact tween_255_of_ge hlt.le

end Sys2Proof.Machine
end

section
/-! PROOFS. The pole weight `alpha`: spec/42_filter_chain.md R121. -/

namespace Sys2Proof.Machine

/-! ## Control registers are written by commands and by reset only -/

@[simp] theorem cvDispatch_ctl (P : Params) (gated : Bool) (s : State) : (cvDispatch P gated s).ctl = s.ctl := by
  rcases cvDispatch_cases P gated s with ⟨-, e⟩ | ⟨-, -, -, e⟩ | ⟨-, -, e⟩
  · rw [e]
  · rw [e]
  · rw [e]
    dsimp only
    split <;> simp

@[simp] theorem tickBody_ctl (P : Params) (s : State) : (tickBody P s).ctl = s.ctl := by
  unfold tickBody
  split
  · exact setDac_ctl center s
  · exact audioTick_ctl P s
  · exact cvDispatch_ctl P s.ctl.gateEn s
  · exact calTick_ctl P s

@[simp] theorem overflowResult_ctl (s : State) : (overflowResult s).ctl = s.ctl := by
  unfold overflowResult
  split
  · exact overflowPoll_ctl s
  split
  · rw [tickBody_ctl, acceptedHead_ctl]
  · exact acceptedHead_ctl s

@[simp] theorem presentCommand_ctl (w : CommandWord) (s : State) : (presentCommand w s).ctl = s.ctl := by
  unfold presentCommand
  split <;> rfl

/-- A step that is neither a command nor a reset leaves every control register. -/
theorem step_ctl_of_ne_cmd_rst {s t : State} (hcmd : nextEvent s ≠ .cmd) (hrst : nextEvent s ≠ .rst)
    (ht : step s = .next t) : t.ctl = s.ctl := by
  suffices ∃ u, step s = .next u ∧ u.ctl = s.ctl by
    obtain ⟨u, hu, hctl⟩ := this
    cases hu.symm.trans ht
    exact hctl
  rcases step_cases s with ⟨d, -, hs⟩ | ⟨d, -, hs⟩ | ⟨us, -, hs⟩ | ⟨w, -, hs⟩ | ⟨he, -⟩ | ⟨a, -, hs⟩ | ⟨-, hs⟩ | ⟨he, -⟩
  · exact ⟨_, hs, by simp⟩
  · exact ⟨_, hs.trans (clockEdge_eq d _), by split <;> simp⟩
  · exact ⟨_, hs, by split <;> simp⟩
  · exact ⟨_, hs, by simp⟩
  · exact absurd he hcmd
  · exact ⟨_, hs, by split <;> simp⟩
  · exact ⟨_, hs, by split <;> simp⟩
  · exact absurd he hrst

/-! ## Commands do not write `alpha` -/

/-- No row of format C writes `alpha` (10_state.md R17). -/
theorem exec_decodeByOpcode_alpha (w : CommandWord) {s t : State} (h : exec (decodeByOpcode w) s = .next t) :
    t.ctl.alpha = s.ctl.alpha := by
  unfold decodeByOpcode at h
  split at h <;> cases h <;> rfl

theorem commandStep_alpha {s t : State} (h : commandStep s = .next t) : t.ctl.alpha = s.ctl.alpha := by
  unfold commandStep at h
  split at h
  · cases h; rfl
  · next w _ =>
    split at h
    · have hrow := (exec_decode_command w (setCmdWord none s)).symm.trans h
      rw [exec_decodeByOpcode_alpha w hrow, setCmdWord_ctl]
    · cases h; rfl

theorem step_alpha_of_ne_rst {s t : State} (hrst : nextEvent s ≠ .rst) (ht : step s = .next t) :
    t.ctl.alpha = s.ctl.alpha := by
  by_cases hcmd : nextEvent s = .cmd
  · have hstep : step s = commandStep (consumeEvent s) := by
      rw [step, hcmd]
      rfl
    rw [commandStep_alpha (hstep.symm.trans ht), consumeEvent_ctl]
  · rw [step_ctl_of_ne_cmd_rst hcmd hrst ht]

theorem step_alpha_of_rst {s t : State} (hrst : nextEvent s = .rst) (ht : step s = .next t) :
    t.ctl.alpha = resetAlpha Config.params := by
  rw [step, hrst] at ht
  cases ht
  rfl

/-- Settles O41: the quotient fits the register, and of all steps only a reset writes it. -/
theorem alphaIsFixedByTheCutoff : Obligations.AlphaIsFixedByTheCutoff := by
  unfold Obligations.AlphaIsFixedByTheCutoff
  refine ⟨fun P => ⟨resetAlpha_toNat P, (resetAlpha_toNat P).trans_le (alphaQuotient_le P.cutoff)⟩, fun s t ht => ?_⟩
  split
  case isTrue hrst => exact step_alpha_of_rst hrst ht
  case isFalse hrst => exact step_alpha_of_ne_rst hrst ht

end Sys2Proof.Machine
end

section
/-! PROOFS. The reverb line and the plain setters: spec/43_reverb.md R135 to R142, with R122 and R174. -/

namespace Sys2Proof.Machine

/-! ## Commands (R122, R138, R139, R140, R174) -/

theorem decodeByOpcode_of_setGlide {w : CommandWord} (h : opField w = 0x2#4) :
    decodeByOpcode w = .setGlide (dataField 8 w) := by simp [decodeByOpcode, h]

theorem decodeByOpcode_of_setResonance {w : CommandWord} (h : opField w = 0x3#4) :
    decodeByOpcode w = .setResonance (dataField 8 w) := by simp [decodeByOpcode, h]

theorem decodeByOpcode_of_setRvbFeedback {w : CommandWord} (h : opField w = 0x4#4) :
    decodeByOpcode w = .setRvbFeedback (dataField 8 w) := by simp [decodeByOpcode, h]

theorem decodeByOpcode_of_setRvbWet {w : CommandWord} (h : opField w = 0x5#4) :
    decodeByOpcode w = .setRvbWet (dataField 8 w) := by simp [decodeByOpcode, h]

theorem decodeByOpcode_of_setRvbDelay {w : CommandWord} (h : opField w = 0x6#4) :
    decodeByOpcode w = .setRvbDelay (dataField 11 w) := by simp [decodeByOpcode, h]

/-- A command word does what the instruction of its opcode's row does. -/
theorem wordDoes_of_row {op : BitVec 4} {row : CommandWord → Instr} {eff : CommandWord → State → State}
    (hrow : ∀ {w : CommandWord}, opField w = op → decodeByOpcode w = row w)
    (heff : ∀ w s, exec (row w) s = .next (eff w s)) : WordDoes op eff := by
  intro w s hop
  rw [exec_decode_command, hrow hop]
  exact heff w s

/-- Settles O6: each setter writes its one register, and a word with its opcode carries the operand in `data[7:0]`. -/
theorem plainSettersStoreTheirOperand : Obligations.PlainSettersStoreTheirOperand := by
  unfold Obligations.PlainSettersStoreTheirOperand
  refine ⟨fun d s => ⟨rfl, rfl, rfl, rfl⟩, ?resonance, ?feedback, ?wet, ?glide⟩
  case resonance => exact wordDoes_of_row decodeByOpcode_of_setResonance fun _ _ => rfl
  case feedback => exact wordDoes_of_row decodeByOpcode_of_setRvbFeedback fun _ _ => rfl
  case wet => exact wordDoes_of_row decodeByOpcode_of_setRvbWet fun _ _ => rfl
  case glide => exact wordDoes_of_row decodeByOpcode_of_setGlide fun _ _ => rfl

/-- The derived read cursor fits its register (20_memory.md R63). -/
theorem delayedCursor_toNat (w d : BitVec 11) :
    (delayedCursor w d).toNat = (w.toNat + 2048 - d.toNat) % 2048 := by
  simp [delayedCursor]

/-- Settles O8: the command's read cursor is `delayedCursor` of the write cursor. -/
theorem setRvbDelayMovesTheReadCursor : Obligations.SetRvbDelayMovesTheReadCursor := by
  unfold Obligations.SetRvbDelayMovesTheReadCursor
  exact ⟨fun d s => ⟨delayedCursor s.eng.rvbWrite d, rfl, delayedCursor_toNat s.eng.rvbWrite d⟩,
    wordDoes_of_row decodeByOpcode_of_setRvbDelay fun _ _ => rfl⟩

/-! ## One run of the line (R135, R136, R137) -/

/-- A run writes one entry, the line's at the write cursor. -/
theorem memRead_reverb_other (P : Params) (f : Sample) (s : State) {M : Ram} {i : Nat}
    (h : M ≠ .rvb ∨ i ≠ s.eng.rvbWrite.toNat) : memRead P M i (reverb P f s).2 = memRead P M i s := by
  rw [memRead_congr P M i (reverb_mem P f s), memRead_memWrite_other P h]

theorem memRead_reverb_written (P : Params) (f : Sample) {s : State} (hw : s.mem.wf P = true) :
    memRead P .rvb s.eng.rvbWrite.toNat (reverb P f s).2 =
      blend f (memRead P .rvb s.eng.rvbRead.toNat s) s.ctl.rvbFeedback := by
  rw [memRead_congr P .rvb _ (reverb_mem P f s), memRead_memWrite_same P _ _ _ _ hw]

theorem reverb_wf (P : Params) (f : Sample) {s : State} (hw : s.mem.wf P = true) :
    (reverb P f s).2.mem.wf P = true := by
  rw [reverb_mem]
  exact memWrite_wf P s.eng.rvbWrite.isLt _ s hw

/-- Settles O43: one write at the write cursor, and a step of both cursors. -/
theorem reverbReadsWritesMixesAdvances : Obligations.ReverbReadsWritesMixesAdvances := by
  unfold Obligations.ReverbReadsWritesMixesAdvances
  refine ⟨recenter_eq, fun P f s hw => ?_⟩
  have hkept : ReadsKept P s (reverb P f s).2 (fun M i => M = .rvb ∧ i = s.eng.rvbWrite.toNat) :=
    fun M i h => memRead_reverb_other P f s (not_and_or.1 h)
  exact ⟨reverb_result P f s, memRead_reverb_written P f hw, hkept, BitVec.toNat_add _ _, BitVec.toNat_add _ _,
    rfl, rfl, rfl, rfl⟩

/-! ## The echo (R142) -/

section Runs

variable (P : Params) (f : Nat → Sample) (s : State)

theorem runReverb_succ (n : Nat) : runReverb P f (n + 1) s = (reverb P (f n) (runReverb P f n s)).2 := rfl

/-- `k + n` runs are `n` runs from the state `k` runs leave. -/
theorem runReverb_add (k n : Nat) :
    runReverb P f (k + n) s = runReverb P (fun j => f (k + j)) n (runReverb P f k s) := by
  induction n with
  | zero => rfl
  | succ n ih => rw [← Nat.add_assoc, runReverb_succ, runReverb_succ, ih]

@[simp] theorem runReverb_ctl (n : Nat) : (runReverb P f n s).ctl = s.ctl := by
  induction n with
  | zero => rfl
  | succ n ih => rw [runReverb_succ, reverb_ctl, ih]

theorem runReverb_rvbRead (n : Nat) :
    (runReverb P f n s).eng.rvbRead.toNat = (s.eng.rvbRead.toNat + n) % 2048 := by
  induction n with
  | zero => exact (Nat.mod_eq_of_lt s.eng.rvbRead.isLt).symm
  | succ n ih =>
    rw [runReverb_succ, reverb_eng, BitVec.toNat_add, ih]
    exact Nat.mod_add_mod _ _ _

theorem runReverb_rvbWrite (n : Nat) :
    (runReverb P f n s).eng.rvbWrite.toNat = (s.eng.rvbWrite.toNat + n) % 2048 := by
  induction n with
  | zero => exact (Nat.mod_eq_of_lt s.eng.rvbWrite.isLt).symm
  | succ n ih =>
    rw [runReverb_succ, reverb_eng, BitVec.toNat_add, ih]
    exact Nat.mod_add_mod _ _ _

theorem runReverb_wf (n : Nat) (hw : s.mem.wf P = true) : (runReverb P f n s).mem.wf P = true := by
  induction n with
  | zero => exact hw
  | succ n ih => exact reverb_wf P (f n) ih

/-- A position that none of `n` runs writes reads as before them. -/
theorem memRead_runReverb_of_unwritten {p : Nat} (n : Nat)
    (h : ∀ j, j < n → p ≠ (s.eng.rvbWrite.toNat + j) % 2048) :
    memRead P .rvb p (runReverb P f n s) = memRead P .rvb p s := by
  induction n with
  | zero => rfl
  | succ n ih =>
    have hp : p ≠ (runReverb P f n s).eng.rvbWrite.toNat := by
      rw [runReverb_rvbWrite]
      exact h n n.lt_succ_self
    rw [runReverb_succ, memRead_reverb_other P _ _ (.inr hp)]
    exact ih fun j hj => h j (hj.trans n.lt_succ_self)

/-- What a run writes stands in its place for the 2047 runs that follow: the write cursor does not come back to it
before. -/
theorem memRead_runReverb_written (hw : s.mem.wf P = true) {n : Nat} (hn : n < 2048) :
    memRead P .rvb s.eng.rvbWrite.toNat (runReverb P f (1 + n) s) =
      blend (f 0) (memRead P .rvb s.eng.rvbRead.toNat s) s.ctl.rvbFeedback := by
  have hunwritten : ∀ j, j < n → s.eng.rvbWrite.toNat ≠ ((runReverb P f 1 s).eng.rvbWrite.toNat + j) % 2048 := by
    intro j hj
    have hlt := s.eng.rvbWrite.isLt
    rw [runReverb_rvbWrite]
    omega
  rw [runReverb_add, memRead_runReverb_of_unwritten P _ _ n hunwritten]
  exact memRead_reverb_written P (f 0) hw

end Runs

/-- The delay of the echo in runs: a full turn of the line for delay 0. -/
def echoDelay (d : BitVec 11) : Nat := if d = 0#11 then 2048 else d.toNat

theorem echoDelay_pos (d : BitVec 11) : 0 < echoDelay d := by
  unfold echoDelay
  split
  case isTrue => decide
  case isFalse h => exact toNat_pos_of_ne_zero h

theorem echoDelay_le (d : BitVec 11) : echoDelay d ≤ 2048 := by
  unfold echoDelay
  split
  case isTrue => exact Nat.le_refl _
  case isFalse => exact d.isLt.le

theorem echoDelay_mod (d : BitVec 11) : echoDelay d % 2048 = d.toNat := by
  unfold echoDelay
  split
  case isTrue h => rw [h]; rfl
  case isFalse => exact Nat.mod_eq_of_lt d.isLt

/-- The write cursor is one echo delay ahead of the read cursor (R141). -/
theorem CursorsApart.rvbWrite_eq {s : State} (h : CursorsApart s) :
    s.eng.rvbWrite.toNat = (s.eng.rvbRead.toNat + echoDelay s.ctl.rvbDelay) % 2048 := by
  have hmod := echoDelay_mod s.ctl.rvbDelay
  have hw := s.eng.rvbWrite.isLt
  have hr := s.eng.rvbRead.isLt
  unfold CursorsApart at h
  omega

/-- Where run `k` writes, run `k + echoDelay` reads. -/
theorem CursorsApart.read_after_delay {s : State} (h : CursorsApart s) (P : Params) (f : Nat → Sample) (k : Nat) :
    (runReverb P f (k + echoDelay s.ctl.rvbDelay) s).eng.rvbRead.toNat = (runReverb P f k s).eng.rvbWrite.toNat := by
  have hwrite := h.rvbWrite_eq
  rw [runReverb_rvbRead, runReverb_rvbWrite]
  omega

/-- A run before the first echo reads a position no run has written. -/
theorem CursorsApart.read_before_echo {s : State} (h : CursorsApart s) (P : Params) (f : Nat → Sample) {k : Nat}
    (hk : k < echoDelay s.ctl.rvbDelay) :
    memRead P .rvb ((s.eng.rvbRead.toNat + k) % 2048) (runReverb P f k s) =
      memRead P .rvb ((s.eng.rvbRead.toNat + k) % 2048) s := by
  have hwrite := h.rvbWrite_eq
  have hle := echoDelay_le s.ctl.rvbDelay
  exact memRead_runReverb_of_unwritten P f s k fun j hj => by omega

/-- Settles O44: the read cursor comes after the delay to the position just written, which the runs between leave
alone; before that it meets positions not yet written. -/
theorem reverbEchoesAfterTheDelay : Obligations.ReverbEchoesAfterTheDelay := by
  unfold Obligations.ReverbEchoesAfterTheDelay
  intro P f s hw hapart k D u v
  refine ⟨?echo, fun hk => ?early⟩
  case echo =>
    obtain ⟨n, hn⟩ : ∃ n, D = 1 + n := Nat.exists_eq_add_of_le (echoDelay_pos s.ctl.rvbDelay)
    have hlt : n < 2048 := by
      have hle : D ≤ 2048 := echoDelay_le s.ctl.rvbDelay
      omega
    have hv : v = runReverb P (fun j => f (k + j)) (1 + n) u := by
      rw [← hn]
      exact runReverb_add P f s k D
    have hread : v.eng.rvbRead.toNat = u.eng.rvbWrite.toNat := hapart.read_after_delay P f k
    rw [hread, hv, memRead_runReverb_written P _ u (runReverb_wf P f s k hw) hlt, runReverb_ctl]
    rfl
  case early =>
    rw [runReverb_rvbRead P f s k]
    exact hapart.read_before_echo P f hk

/-! ## The cursor invariant (R141) -/

/-- `(rvb_write - rvb_read) mod 2048`. -/
def cursorGap (e : Engine) : Nat := (e.rvbWrite.toNat + 2048 - e.rvbRead.toNat) % 2048

theorem cursorsApart_iff (s : State) : CursorsApart s ↔ cursorGap s.eng = s.ctl.rvbDelay.toNat := Iff.rfl

theorem CursorsApart.of_gap {s t : State} (h : CursorsApart s) (hgap : cursorGap t.eng = cursorGap s.eng)
    (hctl : t.ctl = s.ctl) : CursorsApart t := by
  rw [cursorsApart_iff, hgap, hctl]
  exact h

/-- After reset both cursors and the delay are 0. -/
theorem cursorsApart_of_reset {P : Params} {s : State} (heng : s.eng = Engine.reset P) (hctl : s.ctl = Control.reset P) :
    CursorsApart s := by
  simp [cursorsApart_iff, cursorGap, heng, hctl, Engine.reset, Control.reset]

/-- On both paths of an audio tick the effect chain advances both cursors. -/
@[simp] theorem audioTick_cursorGap (P : Params) (s : State) : cursorGap (audioTick P s).eng = cursorGap s.eng := by
  rcases audioTick_cases P s with ⟨-, e⟩ | ⟨-, e⟩
  · simp only [e, nonLoopTick_eng (chain_leavesLoop P), chain_eng, memWrite_eng, cursorGap, cursors_advance]
  · simp only [e, loopTick_eng (chain_leavesLoop P), chain_eng, cursorGap, cursors_advance]

@[simp] theorem cvTick_cursorGap (P : Params) (s : State) : cursorGap (cvTick P s).eng = cursorGap s.eng := by
  rcases cvTick_cases P s with ⟨-, e⟩ | ⟨-, e⟩
  · simp only [e, nonLoopTick_eng (quantize_leavesLoop P), quantize_eng, memWrite_eng, cursorGap]
  · simp only [e, loopTick_eng (quantize_leavesLoop P), quantize_eng, cursorGap]

@[simp] theorem cvDispatch_cursorGap (P : Params) (gated : Bool) (s : State) :
    cursorGap (cvDispatch P gated s).eng = cursorGap s.eng := by
  rcases cvDispatch_cases P gated s with ⟨-, e⟩ | ⟨-, -, -, e⟩ | ⟨-, -, e⟩
  · rw [e]
  · rw [e]
  · rw [e]
    dsimp only
    split <;> exact cvTick_cursorGap P _

@[simp] theorem tickBody_cursorGap (P : Params) (s : State) : cursorGap (tickBody P s).eng = cursorGap s.eng := by
  unfold tickBody
  split
  · rfl
  · exact audioTick_cursorGap P s
  · exact cvDispatch_cursorGap P s.ctl.gateEn s
  · rfl

@[simp] theorem overflowResult_cursorGap (s : State) : cursorGap (overflowResult s).eng = cursorGap s.eng := by
  unfold overflowResult
  split
  · rw [overflowPoll_eng]
  split
  · rw [tickBody_cursorGap, acceptedHead_eng]
  · rw [acceptedHead_eng]

/-- A step that is neither a command nor a reset leaves the cursors where they are or advances both. -/
theorem step_cursorGap {s t : State} (hcmd : nextEvent s ≠ .cmd) (hrst : nextEvent s ≠ .rst)
    (ht : step s = .next t) : cursorGap t.eng = cursorGap s.eng := by
  suffices ∃ u, step s = .next u ∧ cursorGap u.eng = cursorGap s.eng by
    obtain ⟨u, hu, hgap⟩ := this
    cases hu.symm.trans ht
    exact hgap
  rcases step_cases s with ⟨d, -, hs⟩ | ⟨d, -, hs⟩ | ⟨us, -, hs⟩ | ⟨w, -, hs⟩ | ⟨he, -⟩ | ⟨a, -, hs⟩ | ⟨-, hs⟩ | ⟨he, -⟩
  · exact ⟨_, hs, by simp⟩
  · exact ⟨_, hs.trans (clockEdge_eq d _), by split <;> simp⟩
  · exact ⟨_, hs, by split <;> simp⟩
  · exact ⟨_, hs, by simp⟩
  · exact absurd he hcmd
  · exact ⟨_, hs, by split <;> simp⟩
  · exact ⟨_, hs, by split <;> simp [cursorGap]⟩
  · exact absurd he hrst

/-- SET_RVB_DELAY puts the read cursor the new delay behind the write cursor, whatever the cursors were. -/
theorem exec_setRvbDelay_cursorsApart {d : BitVec 11} {s t : State} (h : exec (.setRvbDelay d) s = .next t) :
    CursorsApart t := by
  cases h
  have hw := s.eng.rvbWrite.isLt
  have hd := d.isLt
  rw [cursorsApart_iff, cursorGap, delayedCursor_toNat]
  dsimp only
  omega

/-- Of the rows of format C only SET_RVB_DELAY writes a cursor or the delay. -/
theorem exec_decodeByOpcode_cursorsApart (w : CommandWord) {s t : State} (hs : CursorsApart s)
    (h : exec (decodeByOpcode w) s = .next t) : CursorsApart t := by
  by_cases hop : opField w = 0x6#4
  · rw [decodeByOpcode_of_setRvbDelay hop] at h
    exact exec_setRvbDelay_cursorsApart h
  · unfold decodeByOpcode at h
    split at h
    case h_7 h6 => exact absurd (BitVec.eq_of_toNat_eq h6) hop
    all_goals cases h; exact hs

theorem commandStep_cursorsApart {s t : State} (hs : CursorsApart s) (h : commandStep s = .next t) :
    CursorsApart t := by
  unfold commandStep at h
  split at h
  · cases h; exact hs
  · next w _ =>
    split at h
    · exact exec_decodeByOpcode_cursorsApart w (s := setCmdWord none s) hs ((exec_decode_command w _).symm.trans h)
    · cases h; exact hs

theorem step_cursorsApart {s t : State} (hs : CursorsApart s) (ht : step s = .next t) : CursorsApart t := by
  by_cases hrst : nextEvent s = .rst
  · rw [step, hrst] at ht
    cases ht
    exact cursorsApart_of_reset (resetStep_eng _ _) (resetStep_ctl _ _)
  by_cases hcmd : nextEvent s = .cmd
  · have hstep : step s = commandStep (consumeEvent s) := by
      rw [step, hcmd]
      rfl
    exact commandStep_cursorsApart (hs.of_gap (by simp) (by simp)) (hstep.symm.trans ht)
  · exact hs.of_gap (step_cursorGap hcmd hrst ht) (step_ctl_of_ne_cmd_rst hcmd hrst ht)

/-- Settles O35: after reset both cursors are 0 and so is the delay; the audio chain advances both cursors, and only
SET_RVB_DELAY and reset write them otherwise. -/
theorem reverbCursorsStayOneDelayApart : Obligations.ReverbCursorsStayOneDelayApart := by
  unfold Obligations.ReverbCursorsStayOneDelayApart
  exact ⟨cursorsApart_of_reset (P := Config.params) rfl rfl, fun _ _ => step_cursorsApart⟩

end Sys2Proof.Machine
end

section
/-! PROOFS. The loop and morph engine: spec/44_loop_morph.md R152, R154 to R160. -/

namespace Sys2Proof.Machine

/-! ## Commands (R159, R160) -/

theorem decodeByOpcode_of_setLoopLength {w : CommandWord} (h : opField w = 0x7#4) :
    decodeByOpcode w = .setLoopLength (dataField 8 w) := by simp [decodeByOpcode, h]

theorem decodeByOpcode_of_setMorphRate {w : CommandWord} (h : opField w = 0x8#4) :
    decodeByOpcode w = .setMorphRate (dataField 4 w) := by simp [decodeByOpcode, h]

/-- The test of SET_LOOP_LENGTH on the registers is the one on their numbers. -/
theorem beyondLoop_iff (d p : BitVec 8) : d ≠ 0 ∧ d ≤ p ↔ d.toNat ≠ 0 ∧ d.toNat ≤ p.toNat :=
  and_congr (not_congr (BitVec.toNat_inj (y := 0#8)).symm) BitVec.le_def

theorem exec_setLoopLength (d : BitVec 8) (s : State) :
    exec (.setLoopLength d) s = .next { s with
      ctl := { s.ctl with loopLength := d }
      eng := { s.eng with loopPointer :=
        if d.toNat ≠ 0 ∧ d.toNat ≤ s.eng.loopPointer.toNat then 0#8 else s.eng.loopPointer } } := by
  simp only [← beyondLoop_iff]
  rfl

/-- Settles O9: the model's comparison of the bit vectors is that of their numbers, and a word with the opcode carries
the length in `data[7:0]`. -/
theorem setLoopLengthKeepsThePointerInTheLoop : Obligations.SetLoopLengthKeepsThePointerInTheLoop := by
  unfold Obligations.SetLoopLengthKeepsThePointerInTheLoop
  exact ⟨exec_setLoopLength, wordDoes_of_row decodeByOpcode_of_setLoopLength fun _ _ => exec_setLoopLength _ _⟩

/-- Settles O10: the counter takes `morphReload d`, and `2^15` fits its register. -/
theorem setMorphRateReloadsTheCounter : Obligations.SetMorphRateReloadsTheCounter := by
  unfold Obligations.SetMorphRateReloadsTheCounter
  exact ⟨fun d s => ⟨morphReload d, rfl, morphReload_toNat d⟩,
    wordDoes_of_row decodeByOpcode_of_setMorphRate fun _ _ => rfl⟩

/-! ## The pointer advance (R156) -/

theorem nextPointer_toNat_of_noLoop (p : BitVec 8) : (nextPointer 0 p).toNat = (p.toNat + 1) % 256 := by
  simp [nextPointer]

theorem nextPointer_toNat_of_loop {L : BitVec 8} (h : L ≠ 0) (p : BitVec 8) :
    (nextPointer L p).toNat = if (p.toNat + 1) % 256 ≥ L.toNat then 0 else (p.toNat + 1) % 256 := by
  have hle : L ≤ p + 1 ↔ (p.toNat + 1) % 256 ≥ L.toNat := by rw [BitVec.le_def, BitVec.toNat_add]; rfl
  simp only [nextPointer, ne_eq, h, not_false_eq_true, true_and, hle]
  split
  · rfl
  · exact BitVec.toNat_add _ _

/-- Settles O46: the new pointer is `nextPointer` of the old one. -/
theorem pointerAdvancesInsideTheLoop : Obligations.PointerAdvancesInsideTheLoop := by
  unfold Obligations.PointerAdvancesInsideTheLoop
  refine fun s => ⟨nextPointer s.ctl.loopLength s.eng.loopPointer, rfl, fun h => ?_, fun h => ?_⟩
  · rw [h]
    exact nextPointer_toNat_of_noLoop _
  · exact ⟨nextPointer_toNat_of_loop h _, nextPointer_lt h _⟩

/-! ## The easing index (R152) -/

/-- The right shift of a rate of at least 8. -/
theorem easeIndex_of_rate_ge (c n : Nat) : easeIndex c (8 + n) = c / 2 ^ n := by simp [easeIndex]

/-- The left shift of a rate below 8. -/
theorem easeIndex_of_rate_lt (c : Nat) {r : Nat} (h : r < 8) : easeIndex c r = c * 2 ^ (8 - r) :=
  if_neg (Nat.not_le.2 h)

/-- A value of `0` to `256 * q`, divided by `q`. -/
theorem div_upTo_256 {c q : Nat} (hq : 0 < q) (hc : c ≤ 256 * q) :
    c / q ≤ 256 ∧ (c / q = 256 ↔ c = 256 * q) ∧ (c / q = 0 ↔ c < q) := by
  have hle : c / q ≤ 256 := Nat.div_le_of_le_mul (by rwa [Nat.mul_comm])
  refine ⟨hle, ?_, Nat.div_eq_zero_iff_lt hq⟩
  calc c / q = 256 ↔ 256 ≤ c / q := ⟨Eq.ge, hle.antisymm⟩
    _ ↔ 256 * q ≤ c := Nat.le_div_iff_mul_le hq
    _ ↔ c = 256 * q := ⟨hc.antisymm, Eq.ge⟩

/-- A value of `0` to `m`, multiplied by `q` where `m * q` is 256. -/
theorem mul_upTo_256 {c m q : Nat} (hmq : m * q = 256) (hc : c ≤ m) :
    c * q ≤ 256 ∧ (c * q = 256 ↔ c = m) ∧ (c * q = 0 ↔ c = 0) := by
  have hq : 0 < q := Nat.pos_of_ne_zero (by rintro rfl; simp at hmq)
  rw [← hmq, Nat.mul_left_inj hq.ne', Nat.mul_eq_zero, or_iff_left hq.ne']
  exact ⟨Nat.mul_le_mul_right q hc, Iff.rfl, Iff.rfl⟩

/-- Settles O45: the counter is scaled from `[0, 2^r]` to `[0, 256]`, by a right shift for `r >= 8` and by an exact
left shift below. -/
theorem easingIndexIsAtMost256 : Obligations.EasingIndexIsAtMost256 := by
  unfold Obligations.EasingIndexIsAtMost256
  intro c r _ hc
  refine ⟨rfl, ?_⟩
  rcases Nat.lt_or_ge r 8 with hr | hr
  · rw [easeIndex_of_rate_lt c hr]
    have hscale : 2 ^ r * 2 ^ (8 - r) = 256 := by rw [← Nat.pow_add, Nat.add_sub_cancel' hr.le]
    obtain ⟨hle, hfull, hzero⟩ := mul_upTo_256 hscale hc
    exact ⟨hle, hfull, by rw [hzero]; omega⟩
  · obtain ⟨n, rfl⟩ := Nat.exists_eq_add_of_le hr
    have hq : 0 < 2 ^ n := Nat.two_pow_pos n
    rw [Nat.pow_add] at hc ⊢
    obtain ⟨hle, hfull, hzero⟩ := div_upTo_256 hq hc
    rw [easeIndex_of_rate_ge, Nat.add_sub_cancel_left, hzero]
    refine ⟨hle, hfull, ?_⟩
    rcases Nat.eq_zero_or_pos n with rfl | hn <;> omega

/-! ## One loop tick (R154, R155) -/

@[simp] theorem memRead_setPins (P : Params) (M : Ram) (i : Nat) (d : Draws) (s : State) :
    memRead P M i (setPins d s) = memRead P M i s := rfl

/-- An input read sees the pins alone. -/
theorem adcRead_congr (pin : AdcPin) {s t : State} (h : s.env.pins = t.env.pins) : adcRead pin s = adcRead pin t := by
  cases pin <;> simp only [adcRead, h]

/-- A loop tick as far as its output: the blended value post-processed, written to OUTBUF and driven. -/
def playLoop (P : Params) (post : Sample → State → Sample × State) (s : State) : State :=
  let played := post (loopBlend P s.eng.loopPointer.toNat s) s
  setDac played.1 (memWrite P .outbuf s.eng.loopPointer.toNat played.1 played.2)

theorem loopTick_eq (P : Params) (pin : AdcPin) (post : Sample → State → Sample × State) (s : State) :
    loopTick P pin post s = finishLoop (morphStep P pin s.eng.loopPointer.toNat (playLoop P post s)) := rfl

section LoopTick

variable {P : Params} {post : Sample → State → Sample × State} (hp : LeavesLoop P post) (pin : AdcPin) {s : State}
include hp

theorem playLoop_env : (playLoop P post s).env = s.env := hp.env _ s

theorem playLoop_morphCounter : (playLoop P post s).eng.morphCounter = s.eng.morphCounter := hp.morphCounter _ s

theorem playLoop_memRead {M : Ram} (hrvb : M ≠ .rvb) (hout : M ≠ .outbuf) (i : Nat) :
    memRead P M i (playLoop P post s) = memRead P M i s := by
  rw [playLoop, memRead_congr P M i (setDac_mem _ _), memRead_memWrite_other P (.inl hout), hp.reads _ _ _ _ hrvb]

theorem playLoop_wf (hw : s.mem.wf P = true) : (playLoop P post s).mem.wf P = true :=
  memWrite_wf P (M := .outbuf) s.eng.loopPointer.isLt _ _ (hp.wf _ s hw)

/-- A tick that is no morph event leaves INBUF and MORPHBUF alone. -/
theorem loopTick_memRead_of_no_event (h0 : s.eng.morphCounter ≠ 0) {M : Ram} (hrvb : M ≠ .rvb) (hout : M ≠ .outbuf)
    (i : Nat) : memRead P M i (loopTick P pin post s) = memRead P M i s := by
  rw [← playLoop_morphCounter hp] at h0
  rw [loopTick_eq, memRead_congr P M i (finishLoop_mem _), morphStep_dummy P pin _ _ h0, playLoop_memRead hp hrvb hout]

/-- A tick at counter 0 copies the input of its position to MORPHBUF and overwrites it with the sample drawn. -/
theorem loopTick_event (hw : s.mem.wf P = true) (h0 : s.eng.morphCounter = 0) :
    memRead P .morphbuf s.eng.loopPointer.toNat (loopTick P pin post s) =
        memRead P .inbuf s.eng.loopPointer.toNat s ∧
      memRead P .inbuf s.eng.loopPointer.toNat (loopTick P pin post s) = adcRead pin s := by
  rw [← playLoop_morphCounter hp] at h0
  obtain ⟨hmorph, hin⟩ := morphStep_event P pin s.eng.loopPointer.isLt (playLoop P post s) (playLoop_wf hp hw) h0
  simp only [loopTick_eq, memRead_congr P _ _ (finishLoop_mem _)]
  exact ⟨hmorph.trans (playLoop_memRead hp (by decide) (by decide) _),
    hin.trans (adcRead_congr pin (congrArg Env.pins (playLoop_env hp)))⟩

end LoopTick

/-! ## Where the loop stands, tick by tick (R156, R157) -/

/-- The loop stands at position `p`, with the morph counter at `c`. -/
structure LoopAt (s : State) (p c : Nat) : Prop where
  pointer : s.eng.loopPointer.toNat = p
  counter : s.eng.morphCounter.toNat = c

theorem LoopAt.counter_eq_zero_iff {s : State} {p c : Nat} (h : LoopAt s p c) : s.eng.morphCounter = 0 ↔ c = 0 := by
  rw [← h.counter]
  exact (BitVec.toNat_inj (y := 0#16)).symm

theorem LoopAt.with_pins {s : State} {p c : Nat} (h : LoopAt s p c) (d : Draws) : LoopAt (setPins d s) p c := ⟨h.1, h.2⟩

section LoopTick

variable {P : Params} {post : Sample → State → Sample × State} (hp : LeavesLoop P post) (pin : AdcPin)
  {s : State} {p c : Nat} (h : LoopAt s p c)
include hp h

/-- Before the end of the loop a tick moves the pointer on and keeps the counter. -/
theorem LoopAt.tick_inside (hlt : p + 1 < s.ctl.loopLength.toNat) : LoopAt (loopTick P pin post s) (p + 1) c := by
  obtain ⟨rfl, rfl⟩ := h
  have hL := s.ctl.loopLength.isLt
  have hnext : (nextPointer s.ctl.loopLength s.eng.loopPointer).toNat = s.eng.loopPointer.toNat + 1 := by
    rw [nextPointer_of_lt (by omega), if_neg hlt.ne, BitVec.toNat_add]
    exact Nat.mod_eq_of_lt (hlt.trans hL)
  have hne : nextPointer s.ctl.loopLength s.eng.loopPointer ≠ 0 := by
    intro h0
    simp [h0] at hnext
  rw [← hnext]
  constructor <;> simp only [loopTick_eng hp, if_neg hne]

/-- At the end of the loop a tick takes the pointer to 0 and steps the counter. -/
theorem LoopAt.tick_last (hlast : p + 1 = s.ctl.loopLength.toNat) :
    LoopAt (loopTick P pin post s) 0 (if c = 0 then 2 ^ s.ctl.morphRate.toNat else c - 1) := by
  have hnext : nextPointer s.ctl.loopLength s.eng.loopPointer = 0 := by
    rw [nextPointer_of_lt (by rw [h.pointer]; omega), h.pointer, if_pos hlast]
  constructor
  · simp only [loopTick_eng hp, hnext]
    rfl
  · simp only [loopTick_eng hp, hnext, if_true, h.counter_eq_zero_iff, apply_ite BitVec.toNat, morphReload_toNat]
    have hcounter := h.counter
    split
    · rfl
    · bv_omega

end LoopTick

/-! ## Runs of ticks (R158) -/

section Runs

variable (tick : State → State) (x : Nat → Draws) (s : State)

theorem runTicks_succ (n : Nat) : runTicks tick x (n + 1) s = tick (setPins (x n) (runTicks tick x n s)) := rfl

/-- `k + n` ticks are `n` ticks from the state `k` ticks leave. -/
theorem runTicks_add (k n : Nat) :
    runTicks tick x (k + n) s = runTicks tick (fun j => x (k + j)) n (runTicks tick x k s) := by
  induction n with
  | zero => rfl
  | succ n ih => rw [← Nat.add_assoc, runTicks_succ, runTicks_succ, ih]

end Runs

section LoopRuns

variable {P : Params} {post : Sample → State → Sample × State} (hp : LeavesLoop P post) (pin : AdcPin)
  (x : Nat → Draws) {s : State}
include hp

theorem runTicks_loopTick_ctl (n : Nat) : (runTicks (loopTick P pin post) x n s).ctl = s.ctl := by
  induction n with
  | zero => rfl
  | succ n ih => rw [runTicks_succ, loopTick_ctl hp, setPins_ctl, ih]

theorem runTicks_loopTick_wf (hw : s.mem.wf P = true) (n : Nat) :
    (runTicks (loopTick P pin post) x n s).mem.wf P = true := by
  induction n with
  | zero => exact hw
  | succ n ih => exact loopTick_wf hp pin _ ih

/-- Within a pass the pointer counts the ticks and the counter stands. -/
theorem LoopAt.runTicks_inside {c j : Nat} (h : LoopAt s 0 c) (hj : j < s.ctl.loopLength.toNat) :
    LoopAt (runTicks (loopTick P pin post) x j s) j c := by
  induction j with
  | zero => exact h
  | succ j ih =>
    refine ((ih (by omega)).with_pins (x j)).tick_inside hp pin ?_
    rwa [setPins_ctl, runTicks_loopTick_ctl hp]

/-- A pass over the loop takes the pointer back to 0 and steps the counter once. -/
theorem LoopAt.runTicks_pass {c : Nat} (h : LoopAt s 0 c) (hL : 0 < s.ctl.loopLength.toNat) :
    LoopAt (runTicks (loopTick P pin post) x s.ctl.loopLength.toNat s) 0
      (if c = 0 then 2 ^ s.ctl.morphRate.toNat else c - 1) := by
  obtain ⟨j, hj⟩ := Nat.exists_eq_add_of_le' hL
  have hlast := ((h.runTicks_inside hp pin x (j := j) (by omega)).with_pins (x j)).tick_last hp pin
  rw [setPins_ctl, runTicks_loopTick_ctl hp] at hlast
  rw [hj]
  exact hlast hj.symm

/-- Each pass takes 1 off the counter until it is 0. -/
theorem LoopAt.runTicks_passes {c k : Nat} (h : LoopAt s 0 c) (hL : 0 < s.ctl.loopLength.toNat) (hk : k ≤ c) :
    LoopAt (runTicks (loopTick P pin post) x (k * s.ctl.loopLength.toNat) s) 0 (c - k) := by
  induction k with
  | zero => rwa [Nat.zero_mul]
  | succ k ih =>
    have hpass := (ih (by omega)).runTicks_pass hp pin (fun j => x (k * s.ctl.loopLength.toNat + j))
    rw [runTicks_loopTick_ctl hp, ← runTicks_add, ← Nat.succ_mul, if_neg (by omega), Nat.sub_sub] at hpass
    exact hpass hL

/-- Tick `j` of pass `k` starts at position `j`, with the counter `k` below its first value. -/
theorem LoopAt.runTicks_at {c k j : Nat} (h : LoopAt s 0 c) (hk : k ≤ c) (hj : j < s.ctl.loopLength.toNat) :
    LoopAt (runTicks (loopTick P pin post) x (k * s.ctl.loopLength.toNat + j) s) j (c - k) := by
  rw [runTicks_add]
  refine (h.runTicks_passes hp pin x (by omega) hk).runTicks_inside hp pin _ ?_
  rwa [runTicks_loopTick_ctl hp]

/-! ## What the buffers hold -/

/-- Until the counter has come to 0, INBUF and MORPHBUF hold what they held. -/
theorem LoopAt.memRead_runTicks_before_event {c n : Nat} (h : LoopAt s 0 c) (hn : n ≤ c * s.ctl.loopLength.toNat)
    {M : Ram} (hrvb : M ≠ .rvb) (hout : M ≠ .outbuf) (i : Nat) :
    memRead P M i (runTicks (loopTick P pin post) x n s) = memRead P M i s := by
  induction n with
  | zero => rfl
  | succ n ih =>
    have hL : 0 < s.ctl.loopLength.toNat := Nat.pos_of_ne_zero fun h0 => by simp [h0] at hn
    have hk : n / s.ctl.loopLength.toNat < c := (Nat.div_lt_iff_lt_mul hL).2 hn
    have hat := h.runTicks_at hp pin x hk.le (Nat.mod_lt n hL)
    rw [Nat.div_add_mod'] at hat
    have hcounter := mt (hat.with_pins (x n)).counter_eq_zero_iff.1 (by omega)
    rw [runTicks_succ, loopTick_memRead_of_no_event hp pin hcounter hrvb hout, memRead_setPins, ih (by omega)]

/-- A position the pass has not come to reads as before it. -/
theorem LoopAt.memRead_runTicks_ahead {c n i : Nat} (h : LoopAt s 0 c) (hn : n ≤ s.ctl.loopLength.toNat) (hi : n ≤ i)
    {M : Ram} (hrvb : M ≠ .rvb) : memRead P M i (runTicks (loopTick P pin post) x n s) = memRead P M i s := by
  induction n with
  | zero => rfl
  | succ n ih =>
    have hat := (h.runTicks_inside hp pin x hn).with_pins (x n)
    rw [runTicks_succ, loopTick_memRead hp pin _ hrvb (.inr (by rw [hat.pointer]; omega)), memRead_setPins,
      ih (by omega) (by omega)]

/-- In the pass at counter 0, every position behind the pointer has had its morph event. -/
theorem LoopAt.runTicks_events {n p : Nat} (h : LoopAt s 0 0) (hw : s.mem.wf P = true)
    (hn : n ≤ s.ctl.loopLength.toNat) (hlt : p < n) :
    memRead P .morphbuf p (runTicks (loopTick P pin post) x n s) = memRead P .inbuf p s ∧
      memRead P .inbuf p (runTicks (loopTick P pin post) x n s) = adcRead pin (setPins (x p) s) := by
  induction n with
  | zero => omega
  | succ n ih =>
    have hat := (h.runTicks_inside hp pin x hn).with_pins (x n)
    rw [runTicks_succ]
    rcases Nat.lt_succ_iff_lt_or_eq.1 hlt with hbehind | rfl
    · have hother : p ≠ (setPins (x n) (runTicks (loopTick P pin post) x n s)).eng.loopPointer.toNat := by
        rw [hat.pointer]; omega
      rw [loopTick_memRead hp pin _ (by decide) (.inr hother), loopTick_memRead hp pin _ (by decide) (.inr hother)]
      exact ih (by omega) hbehind
    · have hevent := loopTick_event hp pin (s := setPins (x p) (runTicks (loopTick P pin post) x p s))
        (runTicks_loopTick_wf hp pin x hw p) (hat.counter_eq_zero_iff.2 rfl)
      rw [hat.pointer, memRead_setPins, h.memRead_runTicks_ahead hp pin x (by omega) le_rfl (by decide)] at hevent
      exact hevent.imp_right fun hin => hin.trans (adcRead_congr pin rfl)

/-- With a loop enabled, ticks that take the loop path are loop ticks. -/
theorem runTicks_eq_loopTicks {tick : State → State}
    (htick : ∀ u : State, u.ctl.loopLength ≠ 0 → tick u = loopTick P pin post u) (hL : s.ctl.loopLength ≠ 0) (n : Nat) :
    runTicks tick x n s = runTicks (loopTick P pin post) x n s := by
  induction n with
  | zero => rfl
  | succ n ih =>
    rw [runTicks_succ, runTicks_succ, ih, htick]
    rwa [setPins_ctl, runTicks_loopTick_ctl hp]

end LoopRuns

/-- Both engines run their loop through `loopTick`, with a post-processing that leaves the loop alone. -/
theorem exists_post_of_engine {P : Params} {pin : AdcPin} {tick : State → State}
    (h : (pin = .audio ∧ tick = audioTick P) ∨ (pin = .cv ∧ tick = cvTick P)) :
    ∃ post, LeavesLoop P post ∧ ∀ u : State, u.ctl.loopLength ≠ 0 → tick u = loopTick P pin post u := by
  rcases h with ⟨rfl, rfl⟩ | ⟨rfl, rfl⟩
  · exact ⟨chain P, chain_leavesLoop P, fun _ hL => if_neg hL⟩
  · exact ⟨quantize P, quantize_leavesLoop P, fun _ hL => if_neg hL⟩

/-- Settles O50: the counter loses 1 a pass, so nothing is replaced in `2^r` passes; in the pass after them the counter
is 0 and every tick is the morph event of its position. -/
theorem morphCycleCloses : Obligations.MorphCycleCloses := by
  unfold Obligations.MorphCycleCloses
  intro P x s pin tick hengine hw hloop hpointer hcounter
  obtain ⟨post, hp, htick⟩ := exists_post_of_engine hengine
  have hL : 0 < s.ctl.loopLength.toNat := toNat_pos_of_ne_zero hloop
  have hstart : LoopAt s 0 (2 ^ s.ctl.morphRate.toNat) := ⟨by rw [hpointer]; rfl, hcounter⟩
  simp -zeta only [runTicks_eq_loopTicks hp pin x htick hloop]
  intro L c u t
  have hctl : u.ctl = s.ctl := runTicks_loopTick_ctl hp pin x (c * L)
  have hkept : ∀ {M : Ram}, M ≠ .rvb → M ≠ .outbuf → ∀ i, memRead P M i u = memRead P M i s :=
    hstart.memRead_runTicks_before_event hp pin x le_rfl
  have hu : LoopAt u 0 0 := by simpa using hstart.runTicks_passes hp pin x hL le_rfl
  have ht : t = runTicks (loopTick P pin post) (fun j => x (c * L + j)) u.ctl.loopLength.toNat u := by
    rw [hctl, ← runTicks_add, ← Nat.succ_mul]
  have hclosed : LoopAt t 0 c := by
    have hpass := hu.runTicks_pass hp pin (fun j => x (c * L + j)) (by rwa [hctl])
    rwa [← ht, if_pos rfl, hctl] at hpass
  refine ⟨fun k j hk hj => ?_, ⟨hu.counter_eq_zero_iff.2 rfl, BitVec.eq_of_toNat_eq hu.pointer, fun i => ?_⟩,
    hclosed.counter, BitVec.eq_of_toNat_eq hclosed.pointer, fun p hlt => ?_⟩
  · have hat := hstart.runTicks_at hp pin x hk hj
    exact ⟨hat.counter, hat.pointer⟩
  · exact ⟨hkept (by decide) (by decide) i, hkept (by decide) (by decide) i⟩
  · obtain ⟨hmorph, hin⟩ := hu.runTicks_events hp pin (fun j => x (c * L + j)) (p := p)
      (runTicks_loopTick_wf hp pin x hw (c * L)) le_rfl (by rwa [hctl])
    rw [ht, hmorph, hin, hkept (by decide) (by decide)]
    exact ⟨rfl, adcRead_congr pin rfl⟩

end Sys2Proof.Machine
end

section
/-! PROOFS. The CV quantizer: spec/45_cv_quantizer.md R172, R175 to R180, R182. -/

namespace Sys2Proof.Machine

/-! ## Commands (R175, R180) -/

theorem decodeByOpcode_of_setRoot {w : CommandWord} (h : opField w = 0x9#4) :
    decodeByOpcode w = .setRoot (dataField 4 w) := by simp [decodeByOpcode, h]

theorem decodeByOpcode_of_setScale {w : CommandWord} (h : opField w = 0xA#4) :
    decodeByOpcode w = .setScale (dataField 5 w) := by simp [decodeByOpcode, h]

/-- Clamping an operand to a bound loses no bit of it. -/
theorem toNat_ofNat_min {n : Nat} (d : BitVec n) (m : Nat) : (BitVec.ofNat n (min d.toNat m)).toNat = min d.toNat m :=
  (BitVec.toNat_ofNat _ _).trans (Nat.mod_eq_of_lt (Nat.lt_of_le_of_lt (Nat.min_le_left _ _) d.isLt))

theorem rootOperand_toNat (d : BitVec 4) : (rootOperand d).toNat = min d.toNat 12 := toNat_ofNat_min d 12

theorem scaleOperand_toNat (d : BitVec 5) : (scaleOperand d).toNat = min d.toNat 21 := toNat_ofNat_min d 21

/-- Settles O11: the registers take `rootOperand d` and `scaleOperand d`, and a word with the opcode carries the
operand in `data[3:0]` or `data[4:0]`. -/
theorem setRootAndSetScaleSaturate : Obligations.SetRootAndSetScaleSaturate := by
  unfold Obligations.SetRootAndSetScaleSaturate
  refine ⟨?root, ?scale, ?rootWord, ?scaleWord⟩
  case root => exact fun d _ => ⟨rootOperand d, rfl, rootOperand_toNat d⟩
  case scale => exact fun d _ => ⟨scaleOperand d, rfl, scaleOperand_toNat d⟩
  case rootWord => exact wordDoes_of_row decodeByOpcode_of_setRoot fun _ _ => rfl
  case scaleWord => exact wordDoes_of_row decodeByOpcode_of_setScale fun _ _ => rfl

/-! ## The glide (R172) -/

theorem glideValue_sentinel (P : Params) (w : BitVec 8) (v : Sample) :
    (glideValue P P.sentinel w v).toNat = v.toNat := by
  rw [glideValue, if_pos rfl, BitVec.zeroExtend, BitVec.toNat_setWidth_of_le (by decide)]

/-- The mean of domain values fits the register: no bit of it is lost. -/
theorem glideValue_toNat_of_le {P : Params} {g : BitVec 16} (h : g.toNat ≤ 1023) (w : BitVec 8) (v : Sample) :
    (glideValue P g w v).toNat = (g.toNat * w.toNat + v.toNat * 16) / (w.toNat + 16) := by
  have hmean := glideMean_le w.toNat h (Nat.le_of_lt_succ v.isLt)
  rw [glideValue, if_neg (Params.ne_sentinel h), BitVec.toNat_ofNat]
  exact Nat.mod_eq_of_lt (Nat.lt_of_le_of_lt hmean (by decide))

/-- Settles O51: the register takes `glideValue`, which is a domain value and so never the marker outside the domain. -/
theorem glideIsTheFlooredMean : Obligations.GlideIsTheFlooredMean := by
  unfold Obligations.GlideIsTheFlooredMean
  intro P v s hprimed
  have hle := glideValue_le s.ctl.glide v hprimed
  refine ⟨glideValue P s.eng.glideRolling s.ctl.glide v, rfl, ?value, hle, Params.ne_sentinel hle⟩
  case value =>
    rcases hprimed with hmark | hdomain
    · rw [if_pos hmark, hmark, glideValue_sentinel]
    · rw [if_neg (Params.ne_sentinel hdomain), glideValue_toNat_of_le hdomain]

/-! ## The probability map (R176, R177) -/

theorem jitterDraw_lt (P : Params) (i : Fin 12) (s : State) : jitterDraw P i s < P.jitterRange :=
  Nat.mod_lt _ P.jitter_pos

@[simp] theorem probMap_getLsbD (P : Params) (s : State) (i : Fin 12) : (probMap P s).getLsbD i = mapBit P s i := by
  rw [probMap, BitVec.getLsbD_ofFnLE, dif_pos i.isLt]

theorem permitted_iff {weight : Sample} {jitter range : Nat} {crush : BitVec 10} :
    permitted weight jitter range crush = true ↔
      (weight.toNat : Int) + jitter - (range / 2 : Nat) > 1023 - (crush.toNat : Int) :=
  decide_eq_true_iff

/-- Settles O52: bit `i` of the map is `mapBit` of semitone `i`, whose comparison is made in Z. -/
theorem probabilityMapIsTheSignedComparison : Obligations.ProbabilityMapIsTheSignedComparison := by
  unfold Obligations.ProbabilityMapIsTheSignedComparison
  refine fun P s => ⟨rfl, fun i => ⟨jitterDraw_lt P i s, ?_⟩⟩
  rw [buildProbMap_eng, probMap_getLsbD]
  exact permitted_iff

/-! ## The downward walk (R178) -/

theorem walkDown_of_permitted {map : BitVec 12} {n : Nat} (h : map.getLsbD (n + 1) = true) :
    walkDown map (n + 1) = n + 1 := if_pos h

theorem walkDown_of_not_permitted {map : BitVec 12} {n : Nat} (h : map.getLsbD (n + 1) ≠ true) :
    walkDown map (n + 1) = walkDown map n := if_neg h

theorem walkDown_le (map : BitVec 12) (n : Nat) : walkDown map n ≤ n := by
  induction n with
  | zero => exact le_rfl
  | succ n ih =>
    by_cases h : map.getLsbD (n + 1) = true
    · exact (walkDown_of_permitted h).le
    · rw [walkDown_of_not_permitted h]
      exact ih.trans n.le_succ

/-- The walk stops above 0 only at a permitted semitone. -/
theorem getLsbD_walkDown {map : BitVec 12} {n : Nat} (h0 : walkDown map n ≠ 0) :
    map.getLsbD (walkDown map n) = true := by
  induction n with
  | zero => exact absurd rfl h0
  | succ n ih =>
    by_cases h : map.getLsbD (n + 1) = true
    · rwa [walkDown_of_permitted h]
    · rw [walkDown_of_not_permitted h] at h0 ⊢
      exact ih h0

/-- The walk passes over no permitted semitone. -/
theorem getLsbD_of_walkDown_lt {map : BitVec 12} {n j : Nat} (hlt : walkDown map n < j) (hle : j ≤ n) :
    map.getLsbD j = false := by
  induction n with
  | zero => exact absurd (Nat.zero_lt_of_lt hlt) (Nat.not_lt.2 hle)
  | succ n ih =>
    by_cases h : map.getLsbD (n + 1) = true
    · rw [walkDown_of_permitted h] at hlt
      exact absurd hle (Nat.not_le.2 hlt)
    · rw [walkDown_of_not_permitted h] at hlt
      rcases Nat.le_succ_iff.1 hle with hj | rfl
      · exact ih hlt hj
      · exact Bool.eq_false_iff.2 h

/-- Settles O53, by induction on the start: a step of the walk stops at a permitted semitone or goes on below it. -/
theorem walkDownFindsTheLargestPermitted : Obligations.WalkDownFindsTheLargestPermitted := by
  unfold Obligations.WalkDownFindsTheLargestPermitted
  exact fun map semi _ => ⟨walkDown_le map semi, getLsbD_walkDown, fun _ => getLsbD_of_walkDown_lt⟩

/-! ## The output (R179, R182) -/

theorem noteValue_toNat (n : Nat) : (noteValue n).toNat = min 1023 (n * 1024 / 120) :=
  (BitVec.toNat_ofNat _ _).trans (Nat.mod_eq_of_lt (Nat.lt_succ_of_le (Nat.min_le_left 1023 _)))

/-- The quantizer returns the value of its note: the map is built on control registers and draws the glide leaves
alone. -/
theorem quantize_fst (P : Params) (v : Sample) (s : State) :
    (quantize P v s).1 = noteValue (quantizerNote P v s) := rfl

theorem quantizerNote_le (P : Params) (v : Sample) (s : State) : quantizerNote P v s ≤ 120 := Nat.min_le_left 120 _

/-- Settles O54: the quantizer returns its note's value, which fits a sample, and writes two registers. -/
theorem quantizerOutputIsTheClampedNote : Obligations.QuantizerOutputIsTheClampedNote := by
  unfold Obligations.QuantizerOutputIsTheClampedNote
  refine fun P v s => ⟨rfl, quantizerNote_le P v s, ?_⟩
  rw [quantize_fst, noteValue_toNat]

end Sys2Proof.Machine
end

section
/-! PROOFS. The host interface: spec/47_host_interface.md R197. -/

namespace Sys2Proof.Machine

/-! ## SET_RATE (R197) -/

theorem decodeByOpcode_of_setRate {w : CommandWord} (h : opField w = 0xB#4) :
    decodeByOpcode w = .setRate (dataField 10 w) (w.extractLsb' 10 3) := by simp [decodeByOpcode, h]

/-- Settles O12: the divisor stored and reloaded is `octaveDivisor octdiv`, `2^5` fits its register, and a word with
the opcode carries the operands in `data[9:0]` and `data[12:10]`. -/
theorem setRateLoadsPeriodAndDivisor : Obligations.SetRateLoadsPeriodAndDivisor := by
  unfold Obligations.SetRateLoadsPeriodAndDivisor
  refine ⟨?command, ?word⟩
  case command => exact fun _ octdiv _ => ⟨octaveDivisor octdiv, rfl, octaveDivisor_toNat octdiv⟩
  case word =>
    intro w s hop
    rw [exec_decode_command, decodeByOpcode_of_setRate hop, dataField]

end Sys2Proof.Machine
end

section
/-! PROOFS. Decoding what is encoded: spec/30_encoding.md sections 1 to 6. -/

namespace Sys2Proof.Machine

/-! ## Names and words of the pseudo-commands (R78) -/

@[simp] theorem expand_expand (i : Instr) : i.expand.expand = i.expand := by
  cases i <;> rfl

/-- A command and the pseudo-command that abbreviates it have one word. -/
theorem encode_expand (i : Instr) : encode i.expand = encode i := by
  cases i <;> rfl

theorem expand_abbreviate (i : Instr) : i.abbreviate.expand = i.expand := by
  unfold Instr.abbreviate
  split
  case h_1 => rfl
  case h_2 d => by_cases h : d = 0#8 <;> simp [h, Instr.expand]
  case h_3 d => by_cases h : d = 0#10 <;> simp [h, Instr.expand]
  case h_4 d => by_cases h : d = 0#8 <;> simp [h, Instr.expand]
  case h_5 => rfl

theorem abbreviate_expand (i : Instr) : i.expand.abbreviate = i.abbreviate := by
  cases i <;> rfl

/-- The spelling is the decoder's unless it is one of the four commands that have a pseudo-command's name. -/
theorem wellFormed_or (i : Instr) :
    i.wellFormed = true ∨
      i = .setMode .idle false ∨ i = .setLoopLength 0#8 ∨ i = .setCrush 0#10 ∨ i = .setRvbWet 0#8 := by
  cases i
  case setMode m gate => cases m <;> cases gate <;> simp [Instr.wellFormed]
  case setLoopLength d => simp [Instr.wellFormed, em']
  case setCrush d => simp [Instr.wellFormed, em']
  case setRvbWet d => simp [Instr.wellFormed, em']
  all_goals exact .inl rfl

theorem abbreviate_of_wellFormed {i : Instr} (h : i.wellFormed = true) : i.abbreviate = i := by
  unfold Instr.abbreviate
  split
  case h_1 => cases h
  case h_2 => exact if_neg (by simpa [Instr.wellFormed] using h)
  case h_3 => exact if_neg (by simpa [Instr.wellFormed] using h)
  case h_4 => exact if_neg (by simpa [Instr.wellFormed] using h)
  case h_5 => rfl

@[simp] theorem exec_abbreviate (i : Instr) (s : State) : exec i.abbreviate s = exec i s :=
  calc exec i.abbreviate s
      = exec i.abbreviate.expand s := (exec_expand _ s).symm
    _ = exec i.expand s := by rw [expand_abbreviate]
    _ = exec i s := exec_expand i s

/-- Settles O4: a pseudo-command's word and effect are its command's, and so are those of the name the decoder
chooses. -/
theorem pseudoCommandsRunAsTheirCommands : Obligations.PseudoCommandsRunAsTheirCommands := by
  unfold Obligations.PseudoCommandsRunAsTheirCommands
  exact ⟨⟨rfl, rfl, rfl, rfl⟩, encode_expand, fun i s => ⟨exec_expand i s, exec_abbreviate i s⟩⟩

/-! ## The fields of an encoded word (R70, R71) -/

@[simp] theorem opField_commandWord (op : BitVec 4) (data : BitVec 16) : opField (commandWord op data) = op :=
  BitVec.extractLsb'_append_eq_left

/-- A field inside `data` is that field of `data`. -/
theorem extractLsb'_commandWord {start len : Nat} (h : start + len ≤ 16) (op : BitVec 4) (data : BitVec 16) :
    (commandWord op data).extractLsb' start len = data.extractLsb' start len :=
  BitVec.extractLsb'_append_eq_of_add_le h

/-- The operand field of a word is the operand it was encoded from. -/
@[simp] theorem dataField_commandWord {n : Nat} (h : n ≤ 16) (op : BitVec 4) (d : BitVec n) :
    dataField n (commandWord op (d.zeroExtend 16)) = d := by
  rw [dataField, extractLsb'_commandWord (by omega), BitVec.extractLsb'_setWidth_of_le (by omega),
    BitVec.extractLsb'_eq_self]

/-! ## The rows that name no pseudo-command (R72, R75) -/

/-- The decoder without the rows of format P, which R78 lets a decoder skip. -/
def decodeRow : Encoded → Instr
  | .command w => decodeByOpcode w
  | .selector v => decodeSelector v

/-- The rows of formats C and M give back every instruction, a pseudo-command as its command. -/
theorem decodeRow_encode (i : Instr) : decodeRow (encode i) = i.expand := by
  cases i
  case setRate rate octdiv =>
    refine (decodeByOpcode_of_setRate (opField_commandWord _ _)).trans (congrArg₂ Instr.setRate ?_ ?_)
    · rw [dataField, extractLsb'_commandWord (by decide), BitVec.extractLsb'_setWidth_of_le (by decide)]
      exact BitVec.extractLsb'_append_eq_right
    · rw [extractLsb'_commandWord (by decide), BitVec.extractLsb'_setWidth_of_le (by decide)]
      exact BitVec.extractLsb'_append_eq_left
  case setMode m gate => cases m <;> cases gate <;> rfl
  case idle | loopOff | crushOff | dry => rfl
  case dispatchIdle | dispatchAudio | dispatchCvFree | dispatchCvGated | dispatchCalibrate => rfl
  all_goals simp [decodeRow, encode, decodeByOpcode, Instr.expand]

/-- The rows of format P come before those of format C, but only for four words, whose row in format C is
ill-formed. -/
theorem decode_of_wellFormed_row {e : Encoded} (h : (decodeRow e).wellFormed = true) : decode e = decodeRow e := by
  cases e with
  | selector v => rfl
  | command w =>
    have hidle : w ≠ 0xC0000#20 := by rintro rfl; exact absurd h (by decide)
    have hloopOff : w ≠ 0x70000#20 := by rintro rfl; exact absurd h (by decide)
    have hcrushOff : w ≠ 0x10000#20 := by rintro rfl; exact absurd h (by decide)
    have hdry : w ≠ 0x50000#20 := by rintro rfl; exact absurd h (by decide)
    rw [decode, decodeCommand, if_neg hidle, if_neg hloopOff, if_neg hcrushOff, if_neg hdry, decodeRow]

/-- An instruction that is no pseudo-command: in the decoder's spelling its row answers it, and each of the four others
has one of the four words of format P. -/
theorem decode_encode_of_real {i : Instr} (hreal : i.expand = i) : decode (encode i) = i.abbreviate := by
  have hrow : decodeRow (encode i) = i := (decodeRow_encode i).trans hreal
  rcases wellFormed_or i with hwf | rfl | rfl | rfl | rfl
  · rw [decode_of_wellFormed_row (by rwa [hrow]), hrow, abbreviate_of_wellFormed hwf]
  · rfl
  · rfl
  · rfl
  · rfl

theorem decode_encode (i : Instr) : decode (encode i) = i.abbreviate := by
  rw [← encode_expand, ← abbreviate_expand]
  exact decode_encode_of_real (expand_expand i)

/-- Settles O2: a pseudo-command has the word and the name of its command, and a well-formed instruction is its own
name. -/
theorem decodeOfEncodeIsTheInstruction : Obligations.DecodeOfEncodeIsTheInstruction := by
  unfold Obligations.DecodeOfEncodeIsTheInstruction
  exact fun i => ⟨decode_encode i, fun h => (decode_encode i).trans (abbreviate_of_wellFormed h)⟩

/-- Settles O1, by running the decoder on each word. -/
theorem writtenOutWordsDecode : Obligations.WrittenOutWordsDecode := by
  unfold Obligations.WrittenOutWordsDecode
  exact ⟨rfl, rfl, rfl, rfl, rfl, rfl, rfl, rfl, rfl, rfl⟩

end Sys2Proof.Machine
end

section
/-! PROOFS. The host interface, continued: spec/47_host_interface.md R196, R198, R199, with spec/30_encoding.md R78. -/

namespace Sys2Proof.Machine

/-! ## SET_MODE (R196) -/

theorem decodeByOpcode_of_setMode {w : CommandWord} (h : opField w = 0xC#4) :
    decodeByOpcode w = .setMode (modeOfBits (dataField 2 w)) (w.getLsbD 2) := by simp [decodeByOpcode, h]

@[simp] theorem exec_setMode (m : Mode) (gate : Bool) (s : State) :
    exec (.setMode m gate) s = .next (setMode m gate s) := rfl

/-- Settles O13: `setMode` keeps the stages in every mode but Idle. -/
theorem setModePausesAndCentresOnIdle : Obligations.SetModePausesAndCentresOnIdle := by
  unfold Obligations.SetModePausesAndCentresOnIdle
  refine ⟨?engine, ?idle, fun s => exec_abbreviate (.setMode .idle false) s, ?word⟩
  case engine =>
    intro m gate s hm
    rw [exec_setMode, setMode, if_neg hm]
  case idle => exact fun _ _ => rfl
  case word =>
    intro w s hop
    rw [exec_decode_command, decodeByOpcode_of_setMode hop, dataField]

/-! ## NOP and the reserved opcodes (R73, R198, R199) -/

/-- Settles O14: the rows of the four opcodes answer the four instructions that answer the state itself. -/
theorem nopAndReservedChangeNothing : Obligations.NopAndReservedChangeNothing := by
  unfold Obligations.NopAndReservedChangeNothing
  refine ⟨fun s => ⟨rfl, rfl, rfl, rfl⟩, ?words⟩
  rintro op (rfl | rfl | rfl | rfl)
  · exact wordDoes_of_row (row := fun _ => .nop) (fun h => by simp [decodeByOpcode, h]) fun _ _ => rfl
  · exact wordDoes_of_row (row := fun _ => .reservedD) (fun h => by simp [decodeByOpcode, h]) fun _ _ => rfl
  · exact wordDoes_of_row (row := fun _ => .reservedE) (fun h => by simp [decodeByOpcode, h]) fun _ _ => rfl
  · exact wordDoes_of_row (row := fun _ => .reservedF) (fun h => by simp [decodeByOpcode, h]) fun _ _ => rfl

/-! ## The pseudo-commands (30_encoding.md R78) -/

/-- Settles O15: the pseudo-commands' arms are those of their commands with the operand 0. -/
theorem pseudoCommandsComplete : Obligations.PseudoCommandsComplete := by
  unfold Obligations.PseudoCommandsComplete
  exact fun s => ⟨exec_setLoopLength 0#8 s, exec_setCrush 0#10 s, rfl, exec_setMode .idle false s⟩

end Sys2Proof.Machine
end

section
/-! PROOFS. The steps of the agents: spec/20_memory.md R54 to R58, R65, spec/40_tick_dispatcher.md R90 to R96, R101,
spec/47_host_interface.md R195 and the model's choices of log 4, 5, 6 and 16. -/

namespace Sys2Proof.Machine

/-! ## The schedule (log 4) -/

theorem step_of_event {s : State} {e : Event} (h : nextEvent s = e) : step s = takeEvent e (consumeEvent s) := by
  rw [step, h]

/-- Settles O16: `nextEvent` and `consumeEvent` take the queue's head, or the free schedule's event. -/
theorem stepTakesTheNextEvent : Obligations.StepTakesTheNextEvent := by
  unfold Obligations.StepTakesTheNextEvent
  exact ⟨fun e q s h => by simp only [step, nextEvent, consumeEvent, h],
    fun s h => by simp only [step, nextEvent, consumeEvent, h]⟩

/-! ## The command port (R58, R195) -/

theorem cmdReady_iff (s : State) : cmdReady s = true ↔ s.seq.busy = false ∧ s.eng.rebuildIdx = 1024#11 := by
  simp [cmdReady]

@[simp] theorem cmdReady_consumeEvent (s : State) : cmdReady (consumeEvent s) = cmdReady s := by
  simp only [cmdReady, consumeEvent_seq, consumeEvent_eng]

theorem commandStep_of_ready {s : State} {w : CommandWord} (hw : s.env.cmdWord = some w) (hr : cmdReady s = true) :
    commandStep s = exec (decode (.command w)) (setCmdWord none s) := by
  simp only [commandStep, hw, if_pos hr]

/-- Without a word, or while the port is not ready, the step is not enabled. -/
theorem commandStep_waits {s : State} (h : s.env.cmdWord = none ∨ cmdReady s = false) : commandStep s = .next s := by
  unfold commandStep
  split
  · rfl
  · next hw => rw [if_neg (by simpa [hw] using h)]

/-- The port holds one word: a second is not taken. -/
theorem presentCommand_eq (w : CommandWord) (s : State) :
    presentCommand w s =
      { s with env := { s.env with cmdWord := if s.env.cmdWord = none then some w else s.env.cmdWord } } := by
  unfold presentCommand
  by_cases h : s.env.cmdWord = none
  · rw [if_neg (by simp [h]), if_pos h, setCmdWord]
  · rw [if_pos (Option.isSome_iff_ne_none.2 h), if_neg h]

/-- Settles O17: the command step by whether a word waits and the port is ready, and the presenting step by whether
the port holds a word. -/
theorem commandStepRunsTheWaitingWord : Obligations.CommandStepRunsTheWaitingWord := by
  unfold Obligations.CommandStepRunsTheWaitingWord
  refine ⟨cmdReady_iff, ?runs, ?waits, ?presents⟩
  case runs =>
    intro s w he hw hr
    rw [step_of_event he]
    exact commandStep_of_ready (by rwa [consumeEvent_cmdWord]) (by rwa [cmdReady_consumeEvent])
  case waits =>
    intro s he h
    rw [step_of_event he]
    exact ⟨commandStep_waits (by rwa [consumeEvent_cmdWord, cmdReady_consumeEvent]), consumeEvent_cmdWord s⟩
  case presents =>
    intro s w he
    rw [step_of_event he, takeEvent, presentCommand_eq, consumeEvent_cmdWord]

/-! ## Overflows (R91 to R96) -/

theorem gatedCv_iff (s : State) : gatedCv s = true ↔ s.ctl.mode = .cv ∧ s.ctl.gateEn = true := by
  simp [gatedCv]

/-- The poll of an overflow, written out (R92). -/
theorem overflowPoll_setPins (d : Draws) (s : State) : overflowPoll (setPins d s) = polled d s := by
  unfold overflowPoll
  by_cases h : s.ctl.mode = .cv ∧ s.ctl.gateEn = true
  · rw [if_pos ((gatedCv_iff (setPins d s)).2 h)]
    simp [polled, pollTrigger, setPins, trigRead, risingEdge, h]
  · rw [if_neg (mt (gatedCv_iff (setPins d s)).1 h)]
    have hedge : ¬(s.ctl.mode = .cv ∧ s.ctl.gateEn = true ∧ d.trig = true ∧ s.seq.trigPrev = false) :=
      fun ⟨hm, hg, _⟩ => h ⟨hm, hg⟩
    simp only [polled, if_neg h, if_neg hedge, setPins]

theorem overflow_of_busy {s : State} (hb : s.seq.busy = true) : overflow s = .next (overflowPoll s) := by
  rw [overflow_eq, overflowResult, if_pos hb]

theorem overflow_of_accepted {s : State} (hb : s.seq.busy = false) (ho : s.seq.octCnt - 1 ≠ 0) :
    overflow s = .next { overflowPoll s with seq := { (overflowPoll s).seq with
      busy := true, octCnt := s.seq.octCnt - 1 } } := by
  rw [overflow_eq, overflowResult, if_neg (by simp [hb]), if_neg ho]
  simp only [acceptedHead, stepOctave, acceptOverflow, overflowPoll_octCnt, if_neg ho]

/-- A processing overflow runs the instruction its selector decodes to, with the octave counter reloaded. -/
theorem overflow_of_processing {s : State} (hb : s.seq.busy = false) (ho : s.seq.octCnt = 1) :
    overflow s = exec (decode (.selector (currentSelector s)))
      { overflowPoll s with seq := { (overflowPoll s).seq with busy := true, octCnt := s.ctl.isrPeriod } } := by
  have ho' : s.seq.octCnt - 1 = 0 := by rw [ho]; rfl
  have hhead : acceptedHead s =
      { overflowPoll s with seq := { (overflowPoll s).seq with busy := true, octCnt := s.ctl.isrPeriod } } := by
    simp only [acceptedHead, stepOctave, acceptOverflow, overflowPoll_octCnt, overflowPoll_ctl, if_pos ho']
  have hsel : currentSelector (acceptedHead s) = currentSelector s := by
    simp only [currentSelector, acceptedHead_ctl]
  rw [overflow_eq, overflowResult, if_neg (by simp [hb]), if_pos ho', ← exec_currentSelector, hsel, hhead]

/-- Settles O18: the processing overflow on the state after the poll. -/
theorem processingTickRunsTheSelectedInstruction : Obligations.ProcessingTickRunsTheSelectedInstruction := by
  unfold Obligations.ProcessingTickRunsTheSelectedInstruction
  intro s d he hb ho
  rw [step_of_event he, takeEvent, overflow_of_processing (by simpa using hb) (by simpa using ho), overflowPoll_setPins]
  simp [currentSelector]

/-- Settles O19: a counter of at least 2 is not run down by the decrement. -/
theorem acceptedTickOnlyCountsDown : Obligations.AcceptedTickOnlyCountsDown := by
  unfold Obligations.AcceptedTickOnlyCountsDown
  intro s d he hb ho
  have hne : s.seq.octCnt - 1 ≠ 0 := by bv_omega
  refine ⟨s.seq.octCnt - 1, by bv_omega, ?_⟩
  rw [step_of_event he, takeEvent, overflow_of_accepted (by simpa using hb) (by simpa using hne), overflowPoll_setPins]
  simp

/-- Settles O20: a dropped overflow is its poll. -/
theorem overflowWhileBusyIsDropped : Obligations.OverflowWhileBusyIsDropped := by
  unfold Obligations.OverflowWhileBusyIsDropped
  intro s d he hb
  rw [step_of_event he, takeEvent, overflow_of_busy (by simpa using hb), overflowPoll_setPins]

/-! ## The timer clock (R90) -/

theorem timerExpires_iff (s : State) : timerExpires s = true ↔ s.ctl.timerPeriod.toNat ≤ s.seq.timerCnt.toNat + 1 :=
  decide_eq_true_iff

theorem countTimer_of_expired {s : State} (h : timerExpires s = true) :
    countTimer s = { s with seq := { s.seq with timerCnt := 0 } } := by
  rw [countTimer, if_pos h]

theorem countTimer_of_not_expired {s : State} (h : timerExpires s = false) :
    countTimer s = { s with seq := { s.seq with timerCnt := s.seq.timerCnt + 1 } } := by
  rw [countTimer, if_neg (by simp [h])]

/-- Settles O22: the edge by whether the timer expires; a count below the period does not wrap. -/
theorem clockEdgeCountsOrOverflows : Obligations.ClockEdgeCountsOrOverflows := by
  unfold Obligations.ClockEdgeCountsOrOverflows
  intro s d he
  have hstep : step s = if timerExpires s then overflow (setPins d (countTimer (consumeEvent s)))
      else .next (countTimer (consumeEvent s)) := by
    rw [step_of_event he, ← timerExpires_consumeEvent]
    rfl
  rw [hstep]
  refine ⟨fun hlt => ?counts, fun hle => ?expires⟩
  case counts =>
    have hexp : timerExpires s = false := by simpa [timerExpires] using hlt
    have hfit := s.ctl.timerPeriod.isLt
    refine ⟨s.seq.timerCnt + 1, by bv_omega, ?_⟩
    rw [if_neg (by simp [hexp]), countTimer_of_not_expired (by simpa using hexp), consumeEvent_seq]
  case expires =>
    have hexp : timerExpires s = true := (timerExpires_iff s).2 hle
    rw [if_pos hexp, countTimer_of_expired (by simpa using hexp), consumeEvent_seq]
    rfl

/-! ## DONE (R101) -/

/-- Settles O24: the saturated time fits its register. -/
theorem doneRecordsTheFramePeriod : Obligations.DoneRecordsTheFramePeriod := by
  unfold Obligations.DoneRecordsTheFramePeriod
  intro s us he
  rw [step_of_event he, takeEvent, consumeEvent_seq]
  refine ⟨fun hb => ⟨BitVec.ofNat 16 (min us 65535), ?fits, ?records⟩, fun hb => ?waits⟩
  case fits => exact (BitVec.toNat_ofNat _ _).trans (Nat.mod_eq_of_lt (by omega))
  case records => rw [if_pos hb, finishTick, consumeEvent_seq]
  case waits => rw [if_neg (by simp [hb])]

end Sys2Proof.Machine
end

section
/-! PROOFS. The steps of the agents, continued: the read map (spec/20_memory.md R54, R55, R65), the waiting of log 5, a
reset (spec/70_reset_and_hazards.md R235), the placed words of log 16, and that nothing faults (spec/60_exceptions.md
R215). -/

namespace Sys2Proof.Machine

/-! ## The read map (R54, R55) -/

section ReadMap

variable (P : Params) {a : BitVec 12} (s : State)

theorem readMap_inbuf (h : a.toNat < 0x100) : readMap P a s = (memRead P .inbuf a.toNat s).zeroExtend 16 := if_pos h

theorem readMap_outbuf (h : 0x100 ≤ a.toNat) (h' : a.toNat < 0x200) :
    readMap P a s = (memRead P .outbuf (a.toNat - 0x100) s).zeroExtend 16 := by
  rw [readMap, if_neg (by omega), if_pos h']

theorem readMap_morphbuf (h : 0x200 ≤ a.toNat) (h' : a.toNat < 0x300) :
    readMap P a s = (memRead P .morphbuf (a.toNat - 0x200) s).zeroExtend 16 := by
  rw [readMap, if_neg (by omega), if_neg (by omega), if_pos h']

theorem readMap_probMap (h : 0x300 ≤ a.toNat) (h' : a.toNat < 0x30C) :
    readMap P a s = (BitVec.ofBool (s.eng.probMap.getLsbD (a.toNat - 0x300))).zeroExtend 16 := by
  rw [readMap, if_neg (by omega), if_neg (by omega), if_neg (by omega), if_pos h']

/-- Every address outside the map reads 0 (R55). -/
theorem readMap_unmapped (h : (0x30C ≤ a.toNat ∧ a.toNat ≤ 0x30F) ∨ 0x313 ≤ a.toNat) : readMap P a s = 0 := by
  rw [readMap, if_neg (by omega), if_neg (by omega), if_neg (by omega), if_neg (by omega), if_neg (by omega),
    if_neg (by omega), if_neg (by omega)]

end ReadMap

theorem toNat_address {n : Nat} (h : n < 4096) : (BitVec.ofNat 12 n).toNat = n :=
  (BitVec.toNat_ofNat _ _).trans (Nat.mod_eq_of_lt h)

theorem toNat_zeroExtend_ofBool (b : Bool) : ((BitVec.ofBool b).zeroExtend 16).toNat = if b then 1 else 0 := by
  cases b <;> rfl

/-- Settles O25: the port takes the map's value, and the map is read region by region. -/
theorem readReturnsTheMappedValue : Obligations.ReadReturnsTheMappedValue := by
  unfold Obligations.ReadReturnsTheMappedValue
  refine ⟨?port, fun P s => ⟨?buffers, ?bits, ?pointer, rfl, rfl, fun a => readMap_unmapped P s⟩⟩
  case port =>
    intro s a he hb
    rw [step_of_event he, takeEvent, if_pos (by simp [rdReady, hb]), readPort]
  case buffers =>
    intro i hi
    have hin : (BitVec.ofNat 12 i).toNat = i := toNat_address (by omega)
    have hout : (BitVec.ofNat 12 (0x100 + i)).toNat = 0x100 + i := toNat_address (by omega)
    have hmorph : (BitVec.ofNat 12 (0x200 + i)).toNat = 0x200 + i := toNat_address (by omega)
    rw [readMap_inbuf P s (by omega), readMap_outbuf P s (by omega) (by omega),
      readMap_morphbuf P s (by omega) (by omega), hin, hout, hmorph, Nat.add_sub_cancel_left, Nat.add_sub_cancel_left]
    exact ⟨rfl, rfl, rfl⟩
  case bits =>
    intro i hi
    have hbit : (BitVec.ofNat 12 (0x300 + i)).toNat = 0x300 + i := toNat_address (by omega)
    rw [readMap_probMap P s (by omega) (by omega), hbit, Nat.add_sub_cancel_left]
    exact toNat_zeroExtend_ofBool _
  case pointer => exact BitVec.toNat_setWidth_of_le (show 8 ≤ 16 by decide)

/-! ## Steps that are not enabled (R58) -/

@[simp] theorem rebuildEnabled_consumeEvent (s : State) : rebuildEnabled (consumeEvent s) = rebuildEnabled s := by
  simp only [rebuildEnabled, consumeEvent_seq, consumeEvent_eng]

theorem rebuildEnabled_iff (s : State) :
    rebuildEnabled s = true ↔ s.seq.busy = false ∧ s.eng.rebuildIdx.toNat < 1024 := by
  simp [rebuildEnabled, BitVec.lt_def]

/-- REBUILD_STEP waits while a tick is busy and where no rebuild is in progress. -/
theorem step_rebuild_waits {s : State} (he : nextEvent s = .rebuild)
    (h : s.seq.busy = true ∨ 1024 ≤ s.eng.rebuildIdx.toNat) : step s = .next (consumeEvent s) := by
  have hoff : rebuildEnabled s = false := by
    rw [Bool.eq_false_iff, Ne, rebuildEnabled_iff]
    rcases h with hb | hidx
    · simp [hb]
    · omega
  rw [step_of_event he, takeEvent, rebuildEnabled_consumeEvent, hoff, if_neg Bool.false_ne_true]

/-- CMD waits while the port is not ready. -/
theorem step_cmd_waits {s : State} (he : nextEvent s = .cmd) (h : cmdReady s = false) :
    step s = .next (consumeEvent s) := by
  rw [step_of_event he]
  exact commandStep_waits (.inr (by rwa [cmdReady_consumeEvent]))

theorem step_read_waits {s : State} {a : BitVec 12} (he : nextEvent s = .read a) (hb : s.seq.busy = true) :
    step s = .next (consumeEvent s) := by
  rw [step_of_event he, takeEvent, if_neg (by simp [rdReady, hb])]

/-- Settles O26: each of the three steps waits where the output or flag that enables it is low. -/
theorem hostAndRebuildWaitWhileBusy : Obligations.HostAndRebuildWaitWhileBusy := by
  unfold Obligations.HostAndRebuildWaitWhileBusy
  refine fun s => ⟨?busy, fun he hidx => step_rebuild_waits he (.inr hidx), fun he hidx => ?rebuilding⟩
  case busy =>
    rintro hb (he | he | ⟨a, he⟩)
    · exact step_cmd_waits he (by simp [cmdReady, hb])
    · exact step_rebuild_waits he (.inl hb)
    · exact step_read_waits he hb
  case rebuilding => exact step_cmd_waits he (by simp [cmdReady, hidx])

/-! ## Reset (70_reset_and_hazards.md R235) -/

/-- Settles O32: `resetStep` gives the reset value of every part but the schedule. -/
theorem resetEventRestoresTheResetState : Obligations.ResetEventRestoresTheResetState := by
  unfold Obligations.ResetEventRestoresTheResetState
  exact fun s he => ⟨resetStep Config.params (consumeEvent s), step_of_event he, rfl, rfl, rfl, rfl, rfl, rfl, rfl⟩

/-! ## Placed words (log 16) -/

/-- The event put first is the next step's. -/
theorem step_scheduleFirst (e : Event) (s : State) : step (scheduleFirst e s) = takeEvent e s := rfl

theorem withFetchWord_command (s : State) (w : CommandWord) : s.withFetchWord 24 w.toNat = placeCommand w s := by
  have hbits : Encoded.ofBits 24 w.toNat = .ok (.command w) := by
    rw [Encoded.ofBits, if_neg (by decide), if_neg (by decide), if_pos (by decide), if_pos w.isLt, BitVec.ofNat_toNat,
      BitVec.setWidth_eq]
  rw [State.withFetchWord, placeWord, hbits]

theorem withFetchWord_selector (s : State) (v : Selector) : s.withFetchWord 8 v.toNat = placeSelector v s := by
  have hbits : Encoded.ofBits 8 v.toNat = .ok (.selector v) := by
    rw [Encoded.ofBits, if_neg (by decide), if_pos (by decide), if_pos v.isLt, BitVec.ofNat_toNat, BitVec.setWidth_eq]
  rw [State.withFetchWord, placeWord, hbits]

/-- The selector formed from a word's two fields is the word. -/
theorem selectorOf_fields (v : Selector) : selectorOf (v.getLsbD 2) (modeOfBits (v.extractLsb' 0 2)) = v := by
  revert v
  decide

/-- Settles O30: a placed command waits at a ready port, and a placed selector meets a processing overflow. -/
theorem placedWordRunsNext : Obligations.PlacedWordRunsNext := by
  unfold Obligations.PlacedWordRunsNext
  refine ⟨fun s w => ?command, fun s v => ?selector⟩
  case command =>
    rw [withFetchWord_command, placeCommand, step_scheduleFirst, takeEvent,
      commandStep_of_ready rfl ((cmdReady_iff _).2 ⟨rfl, rfl⟩)]
    rfl
  case selector =>
    rw [withFetchWord_selector, placeSelector, step_scheduleFirst, takeEvent, overflow_of_processing rfl rfl,
      overflowPoll_setPins]
    exact ⟨_, congrArg (fun e => exec (decode (.selector e)) _) (selectorOf_fields v), rfl, rfl, rfl, rfl, rfl⟩

/-! ## No step and no instruction stops (60_exceptions.md R215) -/

theorem exec_answers (i : Instr) (s : State) : ∃ t, exec i s = .next t := by
  cases i <;> exact ⟨_, rfl⟩

theorem commandStep_answers (s : State) : ∃ t, commandStep s = .next t := by
  unfold commandStep
  split
  · exact ⟨s, rfl⟩
  · split
    · exact exec_answers _ _
    · exact ⟨s, rfl⟩

/-- Settles O27: every event but a command answers its next state outright, and a command the one its instruction
does. -/
theorem everyStepAnswersANextState : Obligations.EveryStepAnswersANextState := by
  unfold Obligations.EveryStepAnswersANextState
  refine ⟨fun s => ?_, exec_answers⟩
  rcases step_cases s with ⟨d, -, hs⟩ | ⟨d, -, hs⟩ | ⟨us, -, hs⟩ | ⟨w, -, hs⟩ | ⟨-, hs⟩ | ⟨a, -, hs⟩ | ⟨-, hs⟩ | ⟨-, hs⟩
  · exact ⟨_, hs⟩
  · exact ⟨_, hs.trans (clockEdge_eq d _)⟩
  · exact ⟨_, hs⟩
  · exact ⟨_, hs⟩
  · rw [hs]
    exact commandStep_answers _
  · exact ⟨_, hs⟩
  · exact ⟨_, hs⟩
  · exact ⟨_, hs⟩

end Sys2Proof.Machine
end

section
/-! PROOFS. The two dividers of the tick dispatcher: spec/40_tick_dispatcher.md R90, R95. -/

namespace Sys2Proof.Machine

/-! ## The octave counter (R95) -/

/-- `s` with the octave counter at `n`. -/
def withOctave (n : Nat) (s : State) : State := { s with seq := { s.seq with octCnt := BitVec.ofNat 6 n } }

theorem withOctave_self (s : State) : withOctave s.seq.octCnt.toNat s = s := by
  rw [withOctave, BitVec.ofNat_toNat, BitVec.setWidth_eq]

/-- The octave counter `k` accepted ticks after it stood at `c`, for `k <= N`: it counts down to 1, reloads `N` and
counts down again. -/
def octaveAfter (N c k : Nat) : Nat := if k < c then c - k else N + c - k

theorem octaveAfter_le {N c k : Nat} (hc : c ≤ N) : octaveAfter N c k ≤ N := by
  unfold octaveAfter
  split <;> omega

/-- One period holds the value 1 once. -/
theorem octaveAfter_eq_one_iff {N c k : Nat} (hc : 1 ≤ c) (hk : k < N) : octaveAfter N c k = 1 ↔ k = c - 1 := by
  unfold octaveAfter
  split <;> omega

theorem octaveAfter_succ {N c k : Nat} (hc : 1 ≤ c) (hk : k < N) :
    octaveAfter N c (k + 1) = if octaveAfter N c k = 1 then N else octaveAfter N c k - 1 := by
  unfold octaveAfter
  split <;> split <;> split <;> omega

theorem stepOctave_withOctave {n : Nat} (s : State) (h1 : 1 ≤ n) (h2 : n < 64) :
    stepOctave (withOctave n s) = withOctave (if n = 1 then s.ctl.isrPeriod.toNat else n - 1) s := by
  have hzero : BitVec.ofNat 6 n - 1 = 0 ↔ n = 1 := by
    constructor
    · intro h; bv_omega
    · rintro rfl; rfl
  simp only [stepOctave, withOctave, hzero]
  split
  · rw [BitVec.ofNat_toNat, BitVec.setWidth_eq]
  · have hpred : BitVec.ofNat 6 n - 1 = BitVec.ofNat 6 (n - 1) := by bv_omega
    rw [hpred]

theorem iterate_stepOctave {s : State} (h : OctaveInRange s) {k : Nat} (hk : k ≤ s.ctl.isrPeriod.toNat) :
    stepOctave^[k] s = withOctave (octaveAfter s.ctl.isrPeriod.toNat s.seq.octCnt.toNat k) s := by
  obtain ⟨hpos, hle⟩ := h
  induction k with
  | zero =>
    have hstart : octaveAfter s.ctl.isrPeriod.toNat s.seq.octCnt.toNat 0 = s.seq.octCnt.toNat := if_pos hpos
    rw [hstart, withOctave_self]
    rfl
  | succ k ih =>
    have hmax := octaveAfter_le (k := k) hle
    have hfit := s.ctl.isrPeriod.isLt
    have hmin : 1 ≤ octaveAfter s.ctl.isrPeriod.toNat s.seq.octCnt.toNat k := by
      unfold octaveAfter
      split <;> omega
    rw [Function.iterate_succ_apply', ih (by omega), stepOctave_withOctave s hmin (by omega),
      octaveAfter_succ hpos (by omega)]

/-- Settles O21: the counter meets the value 1 at one of the `N` ticks, and is back where it stood after them. -/
theorem oneTickInNProcesses : Obligations.OneTickInNProcesses := by
  unfold Obligations.OneTickInNProcesses
  intro s h
  obtain ⟨hpos, hle⟩ := id h
  have hfit := s.ctl.isrPeriod.isLt
  refine ⟨?once, ?period⟩
  case once =>
    have hhit : ∀ k ∈ List.range s.ctl.isrPeriod.toNat,
        (((stepOctave^[k]) s).seq.octCnt == 1#6) = true ↔ (k == s.seq.octCnt.toNat - 1) = true := by
      intro k hk
      have hlt := List.mem_range.1 hk
      have hmax := octaveAfter_le (k := k) hle
      rw [iterate_stepOctave h hlt.le, beq_iff_eq, beq_iff_eq, ← octaveAfter_eq_one_iff hpos hlt]
      simp only [withOctave]
      bv_omega
    rw [← List.countP_eq_length_filter, List.countP_congr hhit]
    exact List.count_eq_one_of_mem List.nodup_range (List.mem_range.2 (by omega))
  case period =>
    have hback : octaveAfter s.ctl.isrPeriod.toNat s.seq.octCnt.toNat s.ctl.isrPeriod.toNat = s.seq.octCnt.toNat := by
      unfold octaveAfter
      split <;> omega
    rw [iterate_stepOctave h le_rfl, hback, withOctave_self]

/-! ## The sample clock (R90) -/

/-- `s` with the timer at `n`. -/
def withTimer (n : Nat) (s : State) : State := { s with seq := { s.seq with timerCnt := BitVec.ofNat 16 n } }

theorem withTimer_zero {s : State} (h : s.seq.timerCnt = 0#16) : withTimer 0 s = s := by
  rw [withTimer, ← h]

theorem timerExpires_withTimer {n : Nat} (s : State) (h : n < 65536) :
    timerExpires (withTimer n s) = decide (s.ctl.timerPeriod.toNat ≤ n + 1) := by
  have hn : (BitVec.ofNat 16 n).toNat = n := (BitVec.toNat_ofNat _ _).trans (Nat.mod_eq_of_lt h)
  simp only [timerExpires, withTimer, hn]

/-- Before the period's last edge a cleared timer only counts. -/
theorem iterate_countTimer {s : State} (h0 : s.seq.timerCnt = 0#16) {k : Nat} (hk : k < max 1 s.ctl.timerPeriod.toNat) :
    countTimer^[k] s = withTimer k s := by
  have hfit := s.ctl.timerPeriod.isLt
  induction k with
  | zero =>
    rw [withTimer_zero h0]
    rfl
  | succ k ih =>
    have hexp : timerExpires (withTimer k s) = false := by
      rw [timerExpires_withTimer s (by omega), decide_eq_false_iff_not]
      omega
    rw [Function.iterate_succ_apply', ih (by omega), countTimer_of_not_expired hexp]
    simp [withTimer, BitVec.ofNat_add]

/-- Settles O23: after `k` edges the timer stands at `k` until the period's last edge, which clears it. -/
theorem overflowsAreOnePeriodApart : Obligations.OverflowsAreOnePeriodApart := by
  unfold Obligations.OverflowsAreOnePeriodApart
  intro s h0
  have hfit := s.ctl.timerPeriod.isLt
  have hlast : timerExpires ((countTimer^[max 1 s.ctl.timerPeriod.toNat - 1]) s) = true := by
    rw [iterate_countTimer h0 (by omega), timerExpires_withTimer s (by omega), decide_eq_true_iff]
    omega
  refine ⟨fun k hk => ?before, hlast, ?cleared⟩
  case before =>
    rw [iterate_countTimer h0 (by omega), timerExpires_withTimer s (by omega), decide_eq_false_iff_not]
    omega
  case cleared =>
    obtain ⟨n, hn⟩ : ∃ n, max 1 s.ctl.timerPeriod.toNat = n + 1 := Nat.exists_eq_add_one.2 (by omega)
    rw [hn, Nat.add_sub_cancel] at hlast
    rw [hn, Function.iterate_succ_apply', countTimer_of_expired hlast, iterate_countTimer h0 (by omega)]
    exact withTimer_zero h0

end Sys2Proof.Machine
end

section
/-! PROOFS. Who writes what (spec/10_state.md R49), and the rebuild engine (spec/41_bit_reduction.md R112, R113). -/

namespace Sys2Proof.Machine

/-! ## The tick engine (R49) -/

/-- What belongs to the host and the rebuild engine is the same in both states. -/
structure HostKept (s t : State) : Prop where
  ctl : t.ctl = s.ctl
  rebuildIdx : t.eng.rebuildIdx = s.eng.rebuildIdx
  bittab : t.mem.bittab = s.mem.bittab
  cmdWord : t.env.cmdWord = s.env.cmdWord
  rdData : t.env.rdData = s.env.rdData

theorem HostKept.refl (s : State) : HostKept s s := ⟨rfl, rfl, rfl, rfl, rfl⟩

theorem HostKept.trans {s t u : State} (h : HostKept s t) (h' : HostKept t u) : HostKept s u where
  ctl := h'.ctl.trans h.ctl
  rebuildIdx := h'.rebuildIdx.trans h.rebuildIdx
  bittab := h'.bittab.trans h.bittab
  cmdWord := h'.cmdWord.trans h.cmdWord
  rdData := h'.rdData.trans h.rdData

/-- A write to another memory leaves the cells of BITTAB. -/
theorem memWrite_bittab (P : Params) {M : Ram} (hM : M ≠ .bittab) (i : Nat) (v : Sample) (s : State) :
    (memWrite P M i v s).mem.bittab = s.mem.bittab :=
  cells_setCells_other s.mem hM.symm _

theorem morphStep_bittab (P : Params) (pin : AdcPin) (p : Nat) (s : State) :
    (morphStep P pin p s).mem.bittab = s.mem.bittab := by
  by_cases h0 : s.eng.morphCounter = 0
  · simp only [morphStep, if_pos h0]
    rw [memWrite_bittab P (by decide), memWrite_bittab P (by decide)]
  · rw [morphStep_dummy P pin p s h0]

theorem chain_bittab (P : Params) (v : Sample) (s : State) : (chain P v s).2.mem.bittab = s.mem.bittab := by
  rw [chain_eq, reverb_mem]
  exact memWrite_bittab P (by decide) _ _ _

section Tick

variable {P : Params} {post : Sample → State → Sample × State} (hp : LeavesLoop P post)
  (hbittab : ∀ v u, (post v u).2.mem.bittab = u.mem.bittab) (pin : AdcPin) (s : State)
include hp hbittab

theorem nonLoopTick_hostKept : HostKept s (nonLoopTick P pin post s) where
  ctl := nonLoopTick_ctl hp pin s
  rebuildIdx := by rw [nonLoopTick_eng hp, hp.rebuildIdx, memWrite_eng]
  bittab := by
    simp only [nonLoopTick, advancePtr_mem, setDac_mem]
    rw [memWrite_bittab P (by decide), hbittab, memWrite_bittab P (by decide)]
  cmdWord := congrArg Env.cmdWord (nonLoopTick_env hp pin s)
  rdData := congrArg Env.rdData (nonLoopTick_env hp pin s)

theorem loopTick_hostKept : HostKept s (loopTick P pin post s) where
  ctl := loopTick_ctl hp pin s
  rebuildIdx := by rw [loopTick_eng hp, hp.rebuildIdx]
  bittab := by
    simp only [loopTick, finishLoop_mem]
    rw [morphStep_bittab, setDac_mem, memWrite_bittab P (by decide), hbittab]
  cmdWord := congrArg Env.cmdWord (loopTick_env hp pin s)
  rdData := congrArg Env.rdData (loopTick_env hp pin s)

end Tick

theorem audioTick_hostKept (P : Params) (s : State) : HostKept s (audioTick P s) := by
  rcases audioTick_cases P s with ⟨-, e⟩ | ⟨-, e⟩ <;> rw [e]
  · exact nonLoopTick_hostKept (chain_leavesLoop P) (chain_bittab P) _ s
  · exact loopTick_hostKept (chain_leavesLoop P) (chain_bittab P) _ s

theorem cvTick_hostKept (P : Params) (s : State) : HostKept s (cvTick P s) := by
  have hbittab : ∀ v u, (quantize P v u).2.mem.bittab = u.mem.bittab := fun _ _ => rfl
  rcases cvTick_cases P s with ⟨-, e⟩ | ⟨-, e⟩ <;> rw [e]
  · exact nonLoopTick_hostKept (quantize_leavesLoop P) hbittab _ s
  · exact loopTick_hostKept (quantize_leavesLoop P) hbittab _ s

/-- A state with other sequencing registers has the same host's part. -/
theorem HostKept.of_seq (s : State) (q : Sequencing) : HostKept s { s with seq := q } := ⟨rfl, rfl, rfl, rfl, rfl⟩

theorem cvDispatch_hostKept (P : Params) (gated : Bool) (s : State) : HostKept s (cvDispatch P gated s) := by
  rcases cvDispatch_cases P gated s with ⟨-, e⟩ | ⟨-, -, -, e⟩ | ⟨-, -, e⟩ <;> rw [e]
  · exact .of_seq s _
  · exact .of_seq s _
  · have hrun := (HostKept.of_seq s { s.seq with cvDivCnt := P.cvDiv }).trans (cvTick_hostKept P _)
    cases gated
    · exact hrun
    · exact hrun.trans (.of_seq _ _)

theorem calTick_hostKept (P : Params) (s : State) : HostKept s (calTick P s) where
  ctl := rfl
  rebuildIdx := rfl
  bittab := by
    simp only [calTick, advancePtr_mem, setDac_mem, calAverage_mem]
    rw [memWrite_bittab P (by decide), memWrite_bittab P (by decide)]
  cmdWord := rfl
  rdData := rfl

theorem tickBody_hostKept (P : Params) (s : State) : HostKept s (tickBody P s) := by
  unfold tickBody
  split
  · exact ⟨rfl, rfl, rfl, rfl, rfl⟩
  · exact audioTick_hostKept P s
  · exact cvDispatch_hostKept P _ s
  · exact calTick_hostKept P s

theorem overflowPoll_hostKept (s : State) : HostKept s (overflowPoll s) := by
  unfold overflowPoll
  split
  · exact .of_seq s _
  · exact .refl s

theorem acceptedHead_hostKept (s : State) : HostKept s (acceptedHead s) :=
  (overflowPoll_hostKept s).trans (.of_seq _ _)

theorem overflowResult_hostKept (s : State) : HostKept s (overflowResult s) := by
  unfold overflowResult
  split
  · exact overflowPoll_hostKept s
  split
  · exact (acceptedHead_hostKept s).trans (tickBody_hostKept _ _)
  · exact acceptedHead_hostKept s

theorem setPins_hostKept (d : Draws) (s : State) : HostKept s (setPins d s) := ⟨rfl, rfl, rfl, rfl, rfl⟩

theorem consumeEvent_hostKept (s : State) : HostKept s (consumeEvent s) := by
  constructor <;> simp

theorem step_of_timerClock {s : State} {d : Draws} (h : nextEvent s = .timerClock d) :
    step s = .next (if timerExpires s then overflowResult (setPins d (countTimer (consumeEvent s)))
      else countTimer (consumeEvent s)) := by
  rw [step_of_event h, ← timerExpires_consumeEvent]
  exact clockEdge_eq d _

theorem step_of_done {s : State} {us : Nat} (h : nextEvent s = .done us) :
    step s = .next (if s.seq.busy then finishTick us (consumeEvent s) else consumeEvent s) := by
  rw [step_of_event h, takeEvent, consumeEvent_seq]

/-- The three events of the tick engine leave what is the host's and the rebuild engine's. -/
theorem step_hostKept {s t : State}
    (he : (∃ d, nextEvent s = .ovf d) ∨ (∃ d, nextEvent s = .timerClock d) ∨ (∃ us, nextEvent s = .done us))
    (ht : step s = .next t) : HostKept s t := by
  refine (consumeEvent_hostKept s).trans ?_
  rcases he with ⟨d, he⟩ | ⟨d, he⟩ | ⟨us, he⟩
  · obtain rfl := Host.Outcome.next.inj ((step_of_ovf he).symm.trans ht)
    exact (setPins_hostKept d _).trans (overflowResult_hostKept _)
  · obtain rfl := Host.Outcome.next.inj ((step_of_timerClock he).symm.trans ht)
    have hcount : HostKept (consumeEvent s) (countTimer (consumeEvent s)) := .of_seq _ _
    split
    · exact hcount.trans ((setPins_hostKept d _).trans (overflowResult_hostKept _))
    · exact hcount
  · obtain rfl := Host.Outcome.next.inj ((step_of_done he).symm.trans ht)
    split
    · exact .of_seq _ _
    · exact .refl _

/-! ## Commands (R49) -/

/-- What no command writes is the same in both states: the memories and all registers but those named. -/
structure CommandFrame (s t : State) : Prop where
  mem : t.mem = s.mem
  seq : t.seq = { s.seq with paused := t.seq.paused, octCnt := t.seq.octCnt, timerCnt := t.seq.timerCnt }
  eng : t.eng = { s.eng with
    fstate := t.eng.fstate, rvbRead := t.eng.rvbRead, loopPointer := t.eng.loopPointer
    morphCounter := t.eng.morphCounter, rebuildIdx := t.eng.rebuildIdx }

theorem exec_decodeByOpcode_frame (w : CommandWord) {s t : State} (h : exec (decodeByOpcode w) s = .next t) :
    CommandFrame s t := by
  unfold decodeByOpcode at h
  split at h <;> cases h <;> exact ⟨rfl, rfl, rfl⟩

/-- A command step waits, or runs the opcode's row of the word it takes. -/
theorem commandStep_cases {s t : State} (h : commandStep s = .next t) :
    t = s ∨ ∃ w, exec (decodeByOpcode w) (setCmdWord none s) = .next t := by
  unfold commandStep at h
  split at h
  · exact .inl (Host.Outcome.next.inj h).symm
  · next w _ =>
    split at h
    · exact .inr ⟨w, (exec_decode_command w _).symm.trans h⟩
    · exact .inl (Host.Outcome.next.inj h).symm

theorem commandStep_frame {s t : State} (h : commandStep s = .next t) : CommandFrame s t := by
  rcases commandStep_cases h with rfl | ⟨w, hw⟩
  · exact ⟨rfl, rfl, rfl⟩
  · obtain ⟨hmem, hseq, heng⟩ := exec_decodeByOpcode_frame w hw
    exact ⟨hmem, hseq, heng⟩

theorem step_commandFrame {s t : State} (he : nextEvent s = .cmd) (ht : step s = .next t) : CommandFrame s t := by
  obtain ⟨hmem, hseq, heng⟩ := commandStep_frame ((step_of_event he).symm.trans ht)
  rw [consumeEvent_mem] at hmem
  rw [consumeEvent_seq] at hseq
  rw [consumeEvent_eng] at heng
  exact ⟨hmem, hseq, heng⟩

/-! ## REBUILD_STEP (41_bit_reduction.md R113) -/

theorem step_of_rebuild {s : State} (he : nextEvent s = .rebuild) :
    step s = .next (if rebuildEnabled s then rebuildStep Config.params (consumeEvent s) else consumeEvent s) := by
  rw [step_of_event he, takeEvent, rebuildEnabled_consumeEvent]

/-- Settles O28: each event by the frame of what it runs. -/
theorem eachAgentWritesOnlyItsOwnState : Obligations.EachAgentWritesOnlyItsOwnState := by
  unfold Obligations.EachAgentWritesOnlyItsOwnState
  intro s t ht
  refine ⟨fun he => ?tick, fun he => ?port, fun he => ?rebuild, fun he => ?command⟩
  case tick =>
    obtain ⟨hctl, hidx, hbittab, hword, hdata⟩ := step_hostKept he ht
    exact ⟨hctl, hidx, hbittab, hword, hdata⟩
  case port =>
    rcases he with ⟨a, he⟩ | ⟨w, he⟩
    · obtain rfl := Host.Outcome.next.inj ((step_of_event he).symm.trans ht)
      split <;> simp
    · obtain rfl := Host.Outcome.next.inj ((step_of_event he).symm.trans ht)
      simp [presentCommand_eq]
  case rebuild =>
    obtain rfl := Host.Outcome.next.inj ((step_of_rebuild he).symm.trans ht)
    split <;> simp [setCells]
  case command =>
    obtain ⟨hmem, hseq, heng⟩ := step_commandFrame he ht
    exact ⟨hmem, hseq, heng⟩

section RebuildStep

variable (P : Params) {s : State}

theorem memRead_rebuildStep_written (hw : s.mem.wf P = true) :
    memRead P .bittab s.eng.rebuildIdx.toNat (rebuildStep P s) =
      P.stair s.ctl.crush (BitVec.ofNat 10 s.eng.rebuildIdx.toNat) := by
  rw [memRead_congr P .bittab _ (rebuildStep_mem P s), memRead_memWrite_same P _ _ _ _ hw]

theorem memRead_rebuildStep_other {M : Ram} {i : Nat} (h : M ≠ .bittab ∨ i ≠ s.eng.rebuildIdx.toNat) :
    memRead P M i (rebuildStep P s) = memRead P M i s := by
  rw [memRead_congr P M i (rebuildStep_mem P s), memRead_memWrite_other P h]

variable (hlt : s.eng.rebuildIdx.toNat < 1024)
include hlt

theorem rebuildStep_wf (hw : s.mem.wf P = true) : (rebuildStep P s).mem.wf P = true :=
  memWrite_wf P (M := .bittab) hlt _ s hw

theorem rebuildStep_rebuildIdx : (rebuildStep P s).eng.rebuildIdx.toNat = s.eng.rebuildIdx.toNat + 1 := by
  rw [rebuildStep_eng, BitVec.toNat_add]
  exact Nat.mod_eq_of_lt (Nat.lt_of_lt_of_le (Nat.succ_lt_succ hlt) (by decide))

/-- The step extends the part of the table that is the new staircase by the entry it writes. -/
theorem TableBuilt.rebuildStep (h : TableBuilt P s) (hw : s.mem.wf P = true) : TableBuilt P (rebuildStep P s) := by
  intro i hi
  rw [rebuildStep_rebuildIdx P hlt] at hi
  by_cases hfront : i.toNat = s.eng.rebuildIdx.toNat
  · rw [bitReduce, hfront, memRead_rebuildStep_written P hw, ← hfront, BitVec.ofNat_toNat, BitVec.setWidth_eq,
      rebuildStep_ctl]
  · rw [bitReduce, memRead_rebuildStep_other P (.inr hfront), rebuildStep_ctl]
    exact h i (by omega)

end RebuildStep

@[simp] theorem memRead_consumeEvent (P : Params) (M : Ram) (i : Nat) (s : State) :
    memRead P M i (consumeEvent s) = memRead P M i s :=
  memRead_congr P M i (consumeEvent_mem s)

/-- Settles O37: an enabled step runs `rebuildStep`, which writes one entry. -/
theorem rebuildStepWritesOneEntry : Obligations.RebuildStepWritesOneEntry := by
  unfold Obligations.RebuildStepWritesOneEntry
  intro s he hb hlt hw
  refine ⟨rebuildStep Config.params (consumeEvent s), ?_, ?written, ?front, ?kept, by simp, by simp, by simp, by simp⟩
  · rw [step_of_rebuild he, if_pos ((rebuildEnabled_iff s).2 ⟨hb, hlt⟩)]
  case written =>
    simpa using memRead_rebuildStep_written Config.params (s := consumeEvent s) (by simpa using hw)
  case front =>
    simpa using rebuildStep_rebuildIdx Config.params (s := consumeEvent s) (by simpa using hlt)
  case kept =>
    intro M i h
    rw [memRead_rebuildStep_other _ (by simpa using not_and_or.1 h), memRead_consumeEvent]

/-! ## The whole rebuild (R112, R113) -/

/-- A rebuild of the staircase of `d` that has come to entry `k`, with no tick busy. -/
structure RebuildAt (P : Params) (d : BitVec 10) (k : Nat) (s : State) : Prop where
  idle : s.seq.busy = false
  front : s.eng.rebuildIdx.toNat = k
  crush : s.ctl.crush = d
  table : TableBuilt P s
  memory : s.mem.wf P = true

theorem RebuildAt.enabled {P : Params} {d : BitVec 10} {k : Nat} {s : State} (h : RebuildAt P d k s) (hk : k < 1024) :
    rebuildEnabled s = true :=
  (rebuildEnabled_iff s).2 ⟨h.idle, h.front.symm ▸ hk⟩

theorem RebuildAt.step {P : Params} {d : BitVec 10} {k : Nat} {s : State} (h : RebuildAt P d k s) (hk : k < 1024) :
    RebuildAt P d (k + 1) (rebuildStep P s) := by
  have hlt : s.eng.rebuildIdx.toNat < 1024 := h.front.symm ▸ hk
  exact {
    idle := h.idle
    front := by rw [rebuildStep_rebuildIdx P hlt, h.front]
    crush := h.crush
    table := h.table.rebuildStep P hlt h.memory
    memory := rebuildStep_wf P hlt h.memory }

theorem RebuildAt.iterate {P : Params} {d : BitVec 10} {s : State} (h : RebuildAt P d 0 s) {k : Nat} (hk : k ≤ 1024) :
    RebuildAt P d k ((rebuildStep P)^[k] s) := by
  induction k with
  | zero => exact h
  | succ k ih =>
    rw [Function.iterate_succ_apply']
    exact (ih (by omega)).step (by omega)

/-- SET_CRUSH starts a rebuild at entry 0, below which there is nothing to build. -/
theorem startRebuild_rebuildAt {P : Params} (d : BitVec 10) {s : State} (hw : s.mem.wf P = true)
    (hb : s.seq.busy = false) : RebuildAt P d 0 (startRebuild d s) :=
  ⟨hb, rfl, rfl, fun i hi => absurd hi (Nat.not_lt_zero i.toNat), hw⟩

/-- Settles O38, by induction on the rebuild steps: each is enabled and moves the front on by one entry. -/
theorem rebuildCompletesIn1024Steps : Obligations.RebuildCompletesIn1024Steps := by
  unfold Obligations.RebuildCompletesIn1024Steps
  intro P d s hw hb
  have hstart := startRebuild_rebuildAt d hw hb
  have hdone := hstart.iterate le_rfl
  refine ⟨startRebuild d s, exec_setCrush d s, fun k hk => (hstart.iterate hk.le).enabled hk, fun i => ?table, ?ready⟩
  case table =>
    have hentry := hdone.table i (Nat.lt_of_lt_of_eq i.isLt hdone.front.symm)
    rwa [hdone.crush] at hentry
  case ready => exact (cmdReady_iff _).2 ⟨hdone.idle, BitVec.eq_of_toNat_eq hdone.front⟩

end Sys2Proof.Machine
end

section
/-! PROOFS. The invariants: spec/10_state.md R47, spec/41_bit_reduction.md R114. -/

namespace Sys2Proof.Machine

/-! ## After reset -/

/-- No entry of BITTAB is listed after reset, and the staircase of crush 0 is the identity. -/
theorem tableBuilt_resetWith (P : Params) : TableBuilt P (State.resetWith P) := by
  intro i _
  have hidentity : P.stair (State.resetWith P).ctl.crush i = i := P.stair_identity i
  rw [bitReduce, memRead_resetWith, hidentity]
  exact BitVec.eq_of_toNat_eq (unlisted_bittab_toNat P i.isLt)

theorem sound_resetWith (P : Params) : Sound P (State.resetWith P) where
  octave := ⟨le_rfl, le_rfl⟩
  divider := ⟨P.cvDiv_pos, le_rfl⟩
  cursors := cursorsApart_of_reset (P := P) rfl rfl
  pointer := .inl rfl
  morph := le_rfl
  period := rfl
  divisor := List.mem_cons_self
  averages := ⟨.inl rfl, .inl rfl⟩
  registers := ⟨Nat.zero_le _, Nat.zero_le _, le_rfl, rfl⟩
  table := tableBuilt_resetWith P
  memory := reset_memory_wf P

/-- Settles O33: reset gives every register its value of R48, each within its invariant. -/
theorem resetStateIsSound : Obligations.ResetStateIsSound := sound_resetWith Config.params

/-! ## Steps that write nothing an invariant speaks of -/

/-- The invariants speak of the control and engine registers, the memories and two of the sequencing registers. -/
theorem Sound.congr {P : Params} {s t : State} (h : Sound P s) (hctl : t.ctl = s.ctl) (heng : t.eng = s.eng)
    (hmem : t.mem = s.mem) (hoct : t.seq.octCnt = s.seq.octCnt) (hdiv : t.seq.cvDivCnt = s.seq.cvDivCnt) :
    Sound P t := by
  obtain ⟨ctl, seq, eng, mem, env⟩ := t
  dsimp only at hctl heng hmem hoct hdiv
  subst hctl heng hmem
  refine { h with octave := ?_, divider := ?_ }
  · rw [OctaveInRange, hoct]
    exact h.octave
  · rw [DividerInRange, hdiv]
    exact h.divider

theorem Sound.consumeEvent {P : Params} {s : State} (h : Sound P s) : Sound P (consumeEvent s) :=
  h.congr (by simp) (by simp) (by simp) (by simp) (by simp)

/-! ## Ticks -/

/-- Reads of BITTAB depend on its cells alone. -/
theorem bitReduce_congr (P : Params) {s t : State} (h : t.mem.bittab = s.mem.bittab) (i : Sample) :
    bitReduce P i t = bitReduce P i s :=
  congrArg (fun l => readCells (unlisted P .bittab) l i.toNat) h

/-- A tick keeps the invariants if it keeps those of the registers it may write. -/
theorem Sound.of_tick {P : Params} {s t : State} (h : Sound P s) (hkept : HostKept s t)
    (hoct : t.seq.octCnt = s.seq.octCnt) (hdiv : DividerInRange P t) (hgap : cursorGap t.eng = cursorGap s.eng)
    (hptr : PointerInLoop t) (hmorph : MorphInRange t) (havg : AveragesInDomain P t) (hmem : t.mem.wf P = true) :
    Sound P t where
  octave := by rw [OctaveInRange, hoct, hkept.ctl]; exact h.octave
  divider := hdiv
  cursors := h.cursors.of_gap hgap hkept.ctl
  pointer := hptr
  morph := hmorph
  period := by rw [PeriodFromTable, hkept.ctl]; exact h.period
  divisor := by rw [DivisorLegal, hkept.ctl]; exact h.divisor
  averages := havg
  registers := by rw [RegistersInDomain, hkept.ctl, hkept.rebuildIdx]; exact h.registers
  table := by
    intro i hi
    rw [hkept.rebuildIdx] at hi
    rw [bitReduce_congr P hkept.bittab, hkept.ctl]
    exact h.table i hi
  memory := hmem

/-- The advanced pointer lies inside the loop, or there is none. -/
theorem pointerInLoop_nextPointer (L p : BitVec 8) : L = 0 ∨ (nextPointer L p).toNat < L.toNat := by
  by_cases hL : L = 0
  · exact .inl hL
  · exact .inr (nextPointer_lt hL p)

section Tick

variable {P : Params} {post : Sample → State → Sample × State} (hp : LeavesLoop P post)
  (hbittab : ∀ v u, (post v u).2.mem.bittab = u.mem.bittab)
  (hglide : ∀ v u, Primed P u.eng.glideRolling → Primed P (post v u).2.eng.glideRolling) (pin : AdcPin) {s : State}
include hp hbittab hglide

theorem Sound.nonLoopTick (h : Sound P s) (hgap : cursorGap (nonLoopTick P pin post s).eng = cursorGap s.eng) :
    Sound P (nonLoopTick P pin post s) := by
  refine h.of_tick (nonLoopTick_hostKept hp hbittab pin s) (by rw [nonLoopTick_seq hp]) ?divider hgap ?pointer ?morph
    ?averages (nonLoopTick_wf hp pin s h.memory)
  case divider =>
    rw [DividerInRange, nonLoopTick_seq hp]
    exact h.divider
  case pointer =>
    rw [PointerInLoop, nonLoopTick_ctl hp, nonLoopTick_eng hp]
    exact pointerInLoop_nextPointer _ _
  case morph =>
    rw [MorphInRange, nonLoopTick_ctl hp, nonLoopTick_eng hp, hp.morphCounter, memWrite_eng]
    exact h.morph
  case averages =>
    rw [AveragesInDomain, nonLoopTick_eng hp, hp.calAvg, memWrite_eng]
    exact ⟨hglide _ _ h.averages.1, h.averages.2⟩

theorem Sound.loopTick (h : Sound P s) (hgap : cursorGap (loopTick P pin post s).eng = cursorGap s.eng) :
    Sound P (loopTick P pin post s) := by
  refine h.of_tick (loopTick_hostKept hp hbittab pin s) (by rw [loopTick_seq hp]) ?divider hgap ?pointer ?morph
    ?averages (loopTick_wf hp pin s h.memory)
  case divider =>
    rw [DividerInRange, loopTick_seq hp]
    exact h.divider
  case pointer =>
    rw [PointerInLoop, loopTick_ctl hp, loopTick_eng hp]
    exact pointerInLoop_nextPointer _ _
  case morph =>
    rw [MorphInRange, loopTick_ctl hp, loopTick_eng hp]
    dsimp only
    split
    · exact morphCounter_step_le h.morph
    · exact h.morph
  case averages =>
    rw [AveragesInDomain, loopTick_eng hp, hp.calAvg]
    exact ⟨hglide _ _ h.averages.1, h.averages.2⟩

end Tick

variable {P : Params} {s : State}

theorem Sound.audioTick (h : Sound P s) : Sound P (audioTick P s) := by
  have hgap := audioTick_cursorGap P s
  have hglide : ∀ v u, Primed P u.eng.glideRolling → Primed P (chain P v u).2.eng.glideRolling := fun _ _ hu => hu
  rcases audioTick_cases P s with ⟨-, e⟩ | ⟨-, e⟩ <;> rw [e] at hgap ⊢
  · exact h.nonLoopTick (chain_leavesLoop P) (chain_bittab P) hglide _ hgap
  · exact h.loopTick (chain_leavesLoop P) (chain_bittab P) hglide _ hgap

theorem Sound.cvTick (h : Sound P s) : Sound P (cvTick P s) := by
  have hgap := cvTick_cursorGap P s
  have hbittab : ∀ v u, (quantize P v u).2.mem.bittab = u.mem.bittab := fun _ _ => rfl
  have hglide : ∀ v u, Primed P u.eng.glideRolling → Primed P (quantize P v u).2.eng.glideRolling :=
    fun v u hu => .inr (glideValue_le u.ctl.glide v hu)
  rcases cvTick_cases P s with ⟨-, e⟩ | ⟨-, e⟩ <;> rw [e] at hgap ⊢
  · exact h.nonLoopTick (quantize_leavesLoop P) hbittab hglide _ hgap
  · exact h.loopTick (quantize_leavesLoop P) hbittab hglide _ hgap

theorem Sound.calTick (h : Sound P s) : Sound P (calTick P s) :=
  h.of_tick (calTick_hostKept P s) rfl h.divider rfl (pointerInLoop_nextPointer _ _) h.morph
    ⟨h.averages.1, .inr (calValue_le _ h.averages.2)⟩ (calTick_wf P s h.memory)

theorem Sound.with_divider (h : Sound P s) {n : Nat} (hn : 1 ≤ n ∧ n ≤ P.cvDiv) :
    Sound P { s with seq := { s.seq with cvDivCnt := n } } :=
  { h with divider := hn }

theorem Sound.cvDispatch (h : Sound P s) (gated : Bool) : Sound P (cvDispatch P gated s) := by
  have hfull : Sound P { s with seq := { s.seq with cvDivCnt := P.cvDiv } } := h.with_divider ⟨P.cvDiv_pos, le_rfl⟩
  rcases cvDispatch_cases P gated s with ⟨hne, e⟩ | ⟨-, -, -, e⟩ | ⟨-, -, e⟩ <;> rw [e]
  · have hle := h.divider.2
    exact h.with_divider ⟨by omega, by omega⟩
  · exact hfull
  · cases gated
    · exact hfull.cvTick
    · exact hfull.cvTick.congr rfl rfl rfl rfl rfl

/-! ## Commands -/

/-- SET_LOOP_LENGTH leaves the pointer inside the new loop (44_loop_morph.md R159). -/
theorem setLoopLength_pointerInLoop (d : BitVec 8) (s : State) : PointerInLoop (setLoopLength d s) := by
  rw [PointerInLoop, setLoopLength_ctl, setLoopLength_eng]
  dsimp only
  split
  case isTrue hbeyond => exact .inr (toNat_pos_of_ne_zero hbeyond.1)
  case isFalse hwithin =>
    by_cases h0 : d = 0
    · exact .inl h0
    · exact .inr (BitVec.lt_def.1 (BitVec.not_le.1 fun hle => hwithin ⟨h0, hle⟩))

/-- The divisors are the powers of 2 up to `2^5` (10_state.md R47 I-h). -/
theorem octaveDivisor_mem (o : BitVec 3) : (octaveDivisor o).toNat ∈ [1, 2, 4, 8, 16, 32] := by
  revert o
  decide

/-- SET_CRUSH puts the rebuild front at 0, below which there is no entry to build. -/
theorem Sound.startRebuild (h : Sound P s) (d : BitVec 10) : Sound P (startRebuild d s) := by
  obtain ⟨hnote, hscale, -, halpha⟩ := h.registers
  exact { h with
    registers := ⟨hnote, hscale, Nat.zero_le _, halpha⟩
    table := fun i hi => absurd hi (Nat.not_lt_zero i.toNat) }

theorem Sound.setLoopLength (h : Sound P s) (d : BitVec 8) : Sound P (setLoopLength d s) :=
  { h with pointer := setLoopLength_pointerInLoop d s }

theorem Sound.setRate (h : Sound P s) (rate : BitVec 10) (octdiv : BitVec 3) : Sound P (setRate P rate octdiv s) :=
  { h with
    octave := ⟨(octaveDivisor_toNat octdiv).symm ▸ Nat.two_pow_pos _, le_rfl⟩
    period := rfl
    divisor := octaveDivisor_mem octdiv }

/-- Every instruction keeps the invariants: a setter writes what its register's invariant allows, and a selector runs a
tick. -/
theorem Sound.exec {i : Instr} {t : State} (h : Sound Config.params s) (ht : exec i s = .next t) :
    Sound Config.params t := by
  obtain ⟨hnote, hscale, hidx, halpha⟩ := h.registers
  cases i <;> cases ht
  case setCrush d => exact h.startRebuild d
  case crushOff => exact h.startRebuild 0
  case setLoopLength d => exact h.setLoopLength d
  case loopOff => exact h.setLoopLength 0
  case setRvbDelay d => exact { h with cursors := exec_setRvbDelay_cursorsApart (d := d) rfl }
  case setMorphRate d => exact { h with morph := (morphReload_toNat d).le }
  case setRoot d =>
    exact { h with registers := ⟨(rootOperand_toNat d).trans_le (Nat.min_le_right _ _), hscale, hidx, halpha⟩ }
  case setScale d =>
    exact { h with registers := ⟨hnote, (scaleOperand_toNat d).trans_le (Nat.min_le_right _ _), hidx, halpha⟩ }
  case setRate rate octdiv => exact h.setRate rate octdiv
  case dispatchAudio => exact h.audioTick
  case dispatchCvFree => exact h.cvDispatch false
  case dispatchCvGated => exact h.cvDispatch true
  case dispatchCalibrate => exact h.calTick
  all_goals exact { h with }

/-! ## Overflows -/

theorem Sound.overflowPoll (h : Sound P s) : Sound P (overflowPoll s) :=
  h.congr (overflowPoll_ctl s) (overflowPoll_eng s) (overflowPoll_mem s) (overflowPoll_octCnt s)
    (overflowPoll_cvDivCnt s)

/-- The stepped counter lies between 1 and the divisor, a counter of 1 being reloaded. -/
theorem Sound.stepOctave (h : Sound P s) : Sound P (stepOctave s) := by
  obtain ⟨hpos, hle⟩ := h.octave
  refine { h with octave := ?_ }
  rw [OctaveInRange, stepOctave_seq, stepOctave_ctl]
  dsimp only
  split
  · exact ⟨hpos.trans hle, le_rfl⟩
  · constructor <;> bv_omega

theorem Sound.acceptedHead (h : Sound P s) : Sound P (acceptedHead s) :=
  Sound.stepOctave (s := acceptOverflow (Machine.overflowPoll s)) (h.overflowPoll.congr rfl rfl rfl rfl rfl)

theorem Sound.overflowResult (h : Sound Config.params s) : Sound Config.params (overflowResult s) := by
  unfold Machine.overflowResult
  split
  · exact h.overflowPoll
  split
  · exact h.acceptedHead.exec (exec_currentSelector _)
  · exact h.acceptedHead

/-! ## Every step -/

theorem Sound.commandStep {t : State} (h : Sound Config.params s) (ht : commandStep s = .next t) :
    Sound Config.params t := by
  rcases commandStep_cases ht with rfl | ⟨w, hw⟩
  · exact h
  · exact (h.congr (t := setCmdWord none s) rfl rfl rfl rfl rfl).exec hw

/-- A rebuild step extends the new staircase by one entry, and its front stays within the table. -/
theorem Sound.rebuildStep (h : Sound P s) (hlt : s.eng.rebuildIdx.toNat < 1024) : Sound P (rebuildStep P s) := by
  obtain ⟨hnote, hscale, -, halpha⟩ := h.registers
  exact { h with
    registers := ⟨hnote, hscale, (rebuildStep_rebuildIdx P hlt).trans_le hlt, halpha⟩
    table := h.table.rebuildStep P hlt h.memory
    memory := rebuildStep_wf P hlt h.memory }

theorem Sound.presentCommand (h : Sound P s) (w : CommandWord) : Sound P (presentCommand w s) := by
  rw [presentCommand_eq]
  exact { h with }

/-- Settles O34, event by event: overflows and commands by their instructions, the others by the registers they
write. -/
theorem everyStepKeepsSoundness : Obligations.EveryStepKeepsSoundness := by
  unfold Obligations.EveryStepKeepsSoundness
  intro s t h ht
  have hnext := h.consumeEvent
  have hpins : ∀ (d : Draws) (u : State), Sound Config.params u → Sound Config.params (setPins d u) :=
    fun d u hu => { hu with }
  cases he : nextEvent s with
  | ovf d =>
    obtain rfl := Host.Outcome.next.inj ((step_of_ovf he).symm.trans ht)
    exact (hpins d _ hnext).overflowResult
  | timerClock d =>
    obtain rfl := Host.Outcome.next.inj ((step_of_timerClock he).symm.trans ht)
    have hcount : Sound Config.params (countTimer (Machine.consumeEvent s)) := { hnext with }
    split
    · exact (hpins d _ hcount).overflowResult
    · exact hcount
  | done us =>
    obtain rfl := Host.Outcome.next.inj ((step_of_done he).symm.trans ht)
    split
    · exact { hnext with }
    · exact hnext
  | present w =>
    obtain rfl := Host.Outcome.next.inj ((step_of_event he).symm.trans ht)
    exact hnext.presentCommand w
  | cmd => exact hnext.commandStep ((step_of_event he).symm.trans ht)
  | read a =>
    obtain rfl := Host.Outcome.next.inj ((step_of_event he).symm.trans ht)
    split
    · exact { hnext with }
    · exact hnext
  | rebuild =>
    obtain rfl := Host.Outcome.next.inj ((step_of_rebuild he).symm.trans ht)
    split
    case isTrue hon =>
      have hlt := ((rebuildEnabled_iff s).1 hon).2
      exact hnext.rebuildStep (by rwa [consumeEvent_eng])
    case isFalse => exact hnext
  | rst =>
    obtain rfl := Host.Outcome.next.inj ((step_of_event he).symm.trans ht)
    exact (sound_resetWith Config.params).congr rfl rfl rfl rfl rfl

/-! ## The table above the rebuild front (41_bit_reduction.md R114) -/

/-- A step that is neither a rebuild step nor a reset leaves the cells of BITTAB. -/
theorem step_bittab {s t : State} (hrebuild : nextEvent s ≠ .rebuild) (hrst : nextEvent s ≠ .rst)
    (ht : step s = .next t) : t.mem.bittab = s.mem.bittab := by
  obtain ⟨htick, hport, -, hcmd⟩ := eachAgentWritesOnlyItsOwnState s t ht
  cases he : nextEvent s with
  | ovf d => exact (htick (.inl ⟨d, he⟩)).2.2.1
  | timerClock d => exact (htick (.inr (.inl ⟨d, he⟩))).2.2.1
  | done us => exact (htick (.inr (.inr ⟨us, he⟩))).2.2.1
  | present w => exact congrArg Memory.bittab (hport (.inr ⟨w, he⟩)).2.2.2
  | cmd => exact congrArg Memory.bittab (hcmd he).1
  | read a => exact congrArg Memory.bittab (hport (.inl ⟨a, he⟩)).2.2.2
  | rebuild => exact absurd he hrebuild
  | rst => exact absurd he hrst

/-- No step changes an entry at or above the rebuild front it leaves: a rebuild step writes just below that front, and
after a reset there is nothing above. -/
theorem step_bitReduce_above {s t : State} (ht : step s = .next t) {i : Sample}
    (hi : t.eng.rebuildIdx.toNat ≤ i.toNat) :
    bitReduce Config.params i t = bitReduce Config.params i s := by
  by_cases hrebuild : nextEvent s = .rebuild
  · obtain rfl := Host.Outcome.next.inj ((step_of_rebuild hrebuild).symm.trans ht)
    split at hi
    case isTrue hon =>
      have hlt := ((rebuildEnabled_iff s).1 hon).2
      rw [rebuildStep_rebuildIdx _ (by rwa [consumeEvent_eng]), consumeEvent_eng] at hi
      rw [if_pos hon, bitReduce, memRead_rebuildStep_other _ (.inr (by rw [consumeEvent_eng]; omega)),
        memRead_consumeEvent, bitReduce]
    case isFalse hoff =>
      rw [if_neg hoff, bitReduce, memRead_consumeEvent, bitReduce]
  by_cases hrst : nextEvent s = .rst
  · obtain rfl := Host.Outcome.next.inj ((step_of_event hrst).symm.trans ht)
    exact absurd i.isLt (Nat.not_lt.2 hi)
  · exact bitReduce_congr _ (step_bittab hrebuild hrst ht) i

/-- Settles O36: the state after the step is sound, and the staircase is monotone (P2 of R111). -/
theorem wholeTableIsTheStaircase : Obligations.WholeTableIsTheStaircase := by
  unfold Obligations.WholeTableIsTheStaircase
  intro s t h ht
  have hbelow : TableBuilt Config.params t := (everyStepKeepsSoundness s t h ht).table
  refine ⟨fun hidle => ?whole, fun i => ⟨hbelow i, step_bitReduce_above ht⟩⟩
  case whole =>
    have hall : ∀ i : Sample, memRead Config.params .bittab i.toNat t = Config.params.stair t.ctl.crush i :=
      fun i => hbelow i (by rw [hidle]; exact i.isLt)
    refine ⟨hall, fun i j hij => ?_⟩
    rw [hall i, hall j]
    exact Config.params.stair_monotone _ i j hij

end Sys2Proof.Machine
end

section
/-! PROOFS. The engines: spec/42_filter_chain.md section 3, spec/44_loop_morph.md sections 2 and 3,
spec/45_cv_quantizer.md section 1, spec/40_tick_dispatcher.md section 3, spec/46_calibrate.md. -/

namespace Sys2Proof.Machine

/-! ## The filter chain (R123 to R125) -/

/-- The inverted copy in Z: the differences the rule takes are of the right sign for naturals. -/
theorem invertedCopy_eq (P : Params) (s4 : Sample) :
    invertedCopy P s4 =
      if (s4.toNat : Int) ≤ 512 then (512 - (s4.toNat : Int)) * P.fbNum / P.fbDen
      else -(((s4.toNat : Int) - 512) * P.fbNum / P.fbDen) := by
  unfold invertedCopy
  by_cases h : s4.toNat ≤ 512
  · rw [if_pos h, if_pos (by omega)]
    push_cast [h]
    rfl
  · rw [if_neg h, if_neg (by omega)]
    push_cast [Nat.le_of_not_le h]
    rfl

/-- The clamped combination is a sample: no bit of it is lost (R123, log 3). -/
theorem feedbackCombination_toNat (P : Params) (q s4 : Sample) :
    (feedbackCombination P q s4).toNat =
      (max (P.fbLo.toNat : Int) (min P.fbHi.toNat (q.toNat + invertedCopy P s4))).toNat := by
  have hlo := P.fbLo.isLt
  have hhi := P.fbHi.isLt
  exact (BitVec.toNat_ofNat _ _).trans (Nat.mod_eq_of_lt (by unfold clamp; omega))

/-- Settles O42: the stages are `filterStages`, each of them a `tween` of samples. -/
theorem filterRunsTheFiveStages : Obligations.FilterRunsTheFiveStages := by
  unfold Obligations.FilterRunsTheFiveStages
  intro P q s
  refine ⟨filterStages P q s.ctl.resonance s.ctl.alpha s.eng.fstate, rfl, ?feedback, blend_toNat _ _ _,
    blend_toNat _ _ _, blend_toNat _ _ _, blend_toNat _ _ _⟩
  case feedback =>
    refine (blend_toNat _ _ _).trans ?_
    rw [feedbackCombination_toNat, invertedCopy_eq]

/-! ## The morph step (R155, R157) -/

/-- Settles O47: the morph event at counter 0, the dummy read elsewhere; and the counter's step, which is 1 down or the
reload. -/
theorem morphEventCopiesThenOverwrites : Obligations.MorphEventCopiesThenOverwrites := by
  unfold Obligations.MorphEventCopiesThenOverwrites
  refine ⟨?step, ?counter⟩
  case step =>
    intro P pin p s hp hw t
    refine ⟨morphStep_dummy P pin p s, fun h0 => ?_⟩
    obtain ⟨hmorph, hin⟩ := morphStep_event P pin hp s hw h0
    refine ⟨hmorph, hin, fun M i h => morphStep_memRead P pin p s ?_, morphStep_ctl P pin p s, morphStep_seq P pin p s,
      morphStep_eng P pin p s, morphStep_env P pin p s⟩
    rwa [not_and_or, not_or] at h
  case counter =>
    intro s
    refine ⟨if s.eng.morphCounter = 0 then morphReload s.ctl.morphRate else s.eng.morphCounter - 1, rfl, ?_⟩
    have hzero : s.eng.morphCounter = 0 ↔ s.eng.morphCounter.toNat = 0 := (BitVec.toNat_inj (y := 0#16)).symm
    rw [apply_ite BitVec.toNat, morphReload_toNat]
    simp only [hzero]
    split
    · rfl
    · bv_omega

end Sys2Proof.Machine
end

section
/-! PROOFS. The engines' ticks: spec/44_loop_morph.md sections 2 and 3, spec/45_cv_quantizer.md section 1,
spec/40_tick_dispatcher.md section 3, spec/46_calibrate.md. -/

namespace Sys2Proof.Machine

/-! ## What a tick leaves in the memories, for any post-processing -/

theorem nextPointer_of_noLoop {L : BitVec 8} (h : L = 0) (p : BitVec 8) : nextPointer L p = p + 1 := by
  simp [nextPointer, h]

@[simp] theorem memRead_setDac (P : Params) (M : Ram) (i : Nat) (y : Sample) (s : State) :
    memRead P M i (setDac y s) = memRead P M i s := rfl
@[simp] theorem memRead_advancePtr (P : Params) (M : Ram) (i : Nat) (s : State) :
    memRead P M i (advancePtr s) = memRead P M i s := rfl
@[simp] theorem memRead_calAverage (P : Params) (M : Ram) (i : Nat) (raw : Sample) (s : State) :
    memRead P M i (calAverage P raw s) = memRead P M i s := rfl
@[simp] theorem memRead_finishLoop (P : Params) (M : Ram) (i : Nat) (s : State) :
    memRead P M i (finishLoop s) = memRead P M i s :=
  memRead_congr P M i (finishLoop_mem s)

section Tick

variable {P : Params} {post : Sample → State → Sample × State} (hp : LeavesLoop P post) (pin : AdcPin) {s : State}

/-- An entry outside the tick's positions, and one the post-processing leaves, is not written by a non-loop tick. -/
theorem nonLoopTick_memRead_unwritten {M : Ram} {i : Nat} (h : ¬CvWrites s M i)
    (hpost : ∀ v u, u.eng = s.eng → memRead P M i (post v u).2 = memRead P M i u) :
    memRead P M i (nonLoopTick P pin post s) = memRead P M i s := by
  have hin : M ≠ .inbuf ∨ i ≠ s.eng.loopPointer.toNat := not_and_or.1 fun ⟨hM, hi⟩ => h ⟨.inl hM, hi⟩
  have hout : M ≠ .outbuf ∨ i ≠ s.eng.loopPointer.toNat := not_and_or.1 fun ⟨hM, hi⟩ => h ⟨.inr (.inl hM), hi⟩
  simp only [nonLoopTick]
  rw [memRead_advancePtr, memRead_setDac, memRead_memWrite_other P hout, hpost _ _ (memWrite_eng ..),
    memRead_memWrite_other P hin]

theorem loopTick_memRead_unwritten (hL : s.ctl.loopLength ≠ 0) {M : Ram} {i : Nat} (h : ¬CvWrites s M i)
    (hpost : ∀ v u, u.eng = s.eng → memRead P M i (post v u).2 = memRead P M i u) :
    memRead P M i (loopTick P pin post s) = memRead P M i s := by
  have hin : M ≠ .inbuf ∨ i ≠ s.eng.loopPointer.toNat := not_and_or.1 fun ⟨hM, hi⟩ => h ⟨.inl hM, hi⟩
  have hout : M ≠ .outbuf ∨ i ≠ s.eng.loopPointer.toNat := not_and_or.1 fun ⟨hM, hi⟩ => h ⟨.inr (.inl hM), hi⟩
  have hmorph : M ≠ .morphbuf ∨ i ≠ s.eng.loopPointer.toNat :=
    not_and_or.1 fun ⟨hM, hi⟩ => h ⟨.inr (.inr ⟨hM, hL⟩), hi⟩
  rw [loopTick_eq, memRead_finishLoop, morphStep_memRead P pin _ _ (and_or_right.2 ⟨hin, hmorph⟩),
    playLoop, memRead_setDac, memRead_memWrite_other P hout, hpost _ _ rfl]

theorem nonLoopTick_rvb (i : Nat) :
    memRead P .rvb i (nonLoopTick P pin post s) =
      memRead P .rvb i (post (adcRead pin s) (memWrite P .inbuf s.eng.loopPointer.toNat (adcRead pin s) s)).2 := by
  simp only [nonLoopTick]
  rw [memRead_advancePtr, memRead_setDac, memRead_memWrite_other P (.inl (by decide))]

theorem loopTick_rvb (i : Nat) :
    memRead P .rvb i (loopTick P pin post s) =
      memRead P .rvb i (post (loopBlend P s.eng.loopPointer.toNat s) s).2 := by
  rw [loopTick_eq, memRead_finishLoop, morphStep_memRead P pin _ _ (.inl (by decide)),
    playLoop, memRead_setDac, memRead_memWrite_other P (.inl (by decide))]

include hp

theorem nonLoopTick_inbuf (hw : s.mem.wf P = true) :
    memRead P .inbuf s.eng.loopPointer.toNat (nonLoopTick P pin post s) = adcRead pin s := by
  simp only [nonLoopTick]
  rw [memRead_advancePtr, memRead_setDac, memRead_memWrite_other P (.inl (by decide)),
    hp.reads _ _ _ _ (by decide), memRead_memWrite_same P _ _ _ _ hw]

theorem nonLoopTick_outbuf (hw : s.mem.wf P = true) :
    memRead P .outbuf s.eng.loopPointer.toNat (nonLoopTick P pin post s) =
      (post (adcRead pin s) (memWrite P .inbuf s.eng.loopPointer.toNat (adcRead pin s) s)).1 := by
  have hpost := hp.wf (adcRead pin s) _ (memWrite_wf P (M := .inbuf) s.eng.loopPointer.isLt (adcRead pin s) s hw)
  simp only [nonLoopTick]
  rw [memRead_advancePtr, memRead_setDac, memRead_memWrite_same P _ _ _ _ hpost]

theorem loopTick_outbuf (hw : s.mem.wf P = true) :
    memRead P .outbuf s.eng.loopPointer.toNat (loopTick P pin post s) =
      (post (loopBlend P s.eng.loopPointer.toNat s) s).1 := by
  rw [loopTick_eq, memRead_finishLoop, morphStep_memRead P pin _ _ (.inl (by decide)),
    playLoop, memRead_setDac, memRead_memWrite_same P _ _ _ _ (hp.wf _ _ hw)]

/-- What a loop tick leaves at its position: the output, and at counter 0 the morph event's copy and sample. -/
theorem loopTick_loopBuffers (hw : s.mem.wf P = true) :
    LoopBuffers P s (loopTick P pin post s) (adcRead pin s) (post (loopInput P s) s).1 := by
  refine ⟨loopTick_outbuf hp pin hw, ?_⟩
  by_cases h0 : s.eng.morphCounter = 0
  · rw [if_pos h0, if_pos h0]
    exact loopTick_event hp pin hw h0
  · rw [if_neg h0, if_neg h0]
    exact ⟨loopTick_memRead_of_no_event hp pin h0 (by decide) (by decide) _,
      loopTick_memRead_of_no_event hp pin h0 (by decide) (by decide) _⟩

end Tick

/-! ## The loop registers after a tick inside the loop (R156, R157) -/

theorem nextPointer_eq_loopPointerAfter {s : State} (h : s.eng.loopPointer.toNat < s.ctl.loopLength.toNat) :
    nextPointer s.ctl.loopLength s.eng.loopPointer = loopPointerAfter s :=
  nextPointer_of_lt h

/-- The pointer comes to 0 at the last position of the loop. -/
theorem loopPointerAfter_eq_zero_iff {s : State} (h : s.eng.loopPointer.toNat < s.ctl.loopLength.toNat) :
    loopPointerAfter s = 0 ↔ s.eng.loopPointer.toNat + 1 = s.ctl.loopLength.toNat := by
  have hL := s.ctl.loopLength.isLt
  unfold loopPointerAfter
  split
  case isTrue hlast => exact iff_of_true rfl hlast
  case isFalse hlast => exact iff_of_false (by bv_omega) hlast

/-- The registers after a loop tick with the pointer inside the loop. -/
theorem loopTick_eng_of_lt {P : Params} {post : Sample → State → Sample × State} (hp : LeavesLoop P post)
    (pin : AdcPin) {s : State} (h : s.eng.loopPointer.toNat < s.ctl.loopLength.toNat) :
    (loopTick P pin post s).eng = { (post (loopInput P s) s).2.eng with
      dacOut := (post (loopInput P s) s).1
      loopPointer := loopPointerAfter s
      morphCounter := morphCounterAfter s } := by
  rw [loopTick_eng hp, nextPointer_eq_loopPointerAfter h]
  simp only [loopPointerAfter_eq_zero_iff h]
  rfl

/-! ## The audio engine (R150, R151, R154, R162) -/

theorem chain_fst (P : Params) (v : Sample) (s : State) : (chain P v s).1 = chainOutput P v s := by
  rw [chain_eq, reverb_result]
  rfl

theorem memRead_chain_written (P : Params) (v : Sample) {s : State} (hw : s.mem.wf P = true) :
    memRead P .rvb s.eng.rvbWrite.toNat (chain P v s).2 = chainEcho P v s := by
  rw [chain_eq]
  exact memRead_reverb_written P _ (s := (filter P (bitReduce P v s) s).2) hw

/-- The chain reads BITTAB and the reverb line, so a write to INBUF does not change what it computes. -/
theorem chainFilter_memWrite_inbuf (P : Params) (v : Sample) (i : Nat) (x : Sample) (s : State) :
    chainFilter P v (memWrite P .inbuf i x s) = chainFilter P v s := by
  rw [chainFilter, memRead_memWrite_other P (.inl (by decide))]
  rfl

theorem chainOutput_memWrite_inbuf (P : Params) (v : Sample) (i : Nat) (x : Sample) (s : State) :
    chainOutput P v (memWrite P .inbuf i x s) = chainOutput P v s := by
  rw [chainOutput, chainFilter_memWrite_inbuf, memRead_memWrite_other P (.inl (by decide))]
  rfl

theorem chainEcho_memWrite_inbuf (P : Params) (v : Sample) (i : Nat) (x : Sample) (s : State) :
    chainEcho P v (memWrite P .inbuf i x s) = chainEcho P v s := by
  rw [chainEcho, chainFilter_memWrite_inbuf, memRead_memWrite_other P (.inl (by decide))]
  rfl

/-- Outside the audio tick's writes the chain writes nothing. -/
theorem memRead_chain_of_not_audioWrites (P : Params) {s : State} {M : Ram} {i : Nat} (h : ¬AudioWrites s M i)
    (v : Sample) (u : State) (hu : u.eng = s.eng) : memRead P M i (chain P v u).2 = memRead P M i u :=
  chain_memRead P v u (by rw [hu]; exact not_and_or.1 fun hrvb => h (.inr hrvb))

/-- Settles O48: the tick writes the sample, then runs the chain on it. -/
theorem audioTickWithoutLoop : Obligations.AudioTickWithoutLoop := by
  unfold Obligations.AudioTickWithoutLoop
  intro s hw hL P x
  have hp := chain_leavesLoop P
  refine ⟨nonLoopTick P .audio (chain P) s, congrArg _ (if_pos hL), nonLoopTick_inbuf hp _ hw, ?output, ?echo, ?eng,
    ?kept, nonLoopTick_ctl hp _ s, nonLoopTick_seq hp _ s, nonLoopTick_env hp _ s⟩
  case output => rw [nonLoopTick_outbuf hp _ hw, chain_fst, chainOutput_memWrite_inbuf]; rfl
  case echo =>
    have hw' := memWrite_wf P (M := .inbuf) s.eng.loopPointer.isLt x s hw
    rw [nonLoopTick_rvb]
    exact (memRead_chain_written P x hw').trans (chainEcho_memWrite_inbuf P x _ x s)
  case eng =>
    rw [nonLoopTick_eng hp, nextPointer_of_noLoop hL, chain_fst, chainOutput_memWrite_inbuf,
      ← chainFilter_memWrite_inbuf P x s.eng.loopPointer.toNat x s]
    rfl
  case kept =>
    intro M i h
    exact nonLoopTick_memRead_unwritten _ (fun hbuf => h (.inl hbuf)) (memRead_chain_of_not_audioWrites P h)

/-- Settles O49: the tick runs the chain on the blend, then the morph step. -/
theorem audioTickWithLoop : Obligations.AudioTickWithLoop := by
  unfold Obligations.AudioTickWithLoop
  intro s hw hL hlt P b
  have hp := chain_leavesLoop P
  refine ⟨loopTick P .audio (chain P) s, congrArg _ (if_neg hL), ?buffers, ?echo, ?eng, ?kept, loopTick_ctl hp _ s,
    loopTick_seq hp _ s, loopTick_env hp _ s⟩
  case buffers =>
    rw [← chain_fst]
    exact loopTick_loopBuffers hp .audio hw
  case echo =>
    rw [loopTick_rvb]
    exact memRead_chain_written P b hw
  case eng =>
    rw [loopTick_eng_of_lt hp _ hlt, chain_fst]
    rfl
  case kept =>
    intro M i h
    exact loopTick_memRead_unwritten _ hL (fun hbuf => h (.inl hbuf)) (memRead_chain_of_not_audioWrites P h)

/-! ## The CV engine (45_cv_quantizer.md R170, R171, R181) -/

/-- One run of the CV engine, on both paths. -/
theorem cvTick_run (P : Params) {s : State} (hw : s.mem.wf P = true) : CvEngineRun P s (cvTick P s) := by
  have hp := quantize_leavesLoop P
  refine ⟨cvTick_ctl P s, cvTick_env P s, ?kept, fun hL => ?noLoop, fun hL hlt => ?loop⟩
  case kept =>
    intro M i h
    rcases cvTick_cases P s with ⟨-, e⟩ | ⟨hL, e⟩ <;> rw [e]
    · exact nonLoopTick_memRead_unwritten _ h fun _ _ _ => rfl
    · exact loopTick_memRead_unwritten _ hL h fun _ _ _ => rfl
  case noLoop =>
    rw [cvTick, if_pos hL]
    refine ⟨?_, nonLoopTick_inbuf hp _ hw, nonLoopTick_outbuf hp _ hw⟩
    rw [nonLoopTick_eng hp, nextPointer_of_noLoop hL]
    rfl
  case loop =>
    rw [cvTick, if_neg hL]
    refine ⟨?_, loopTick_loopBuffers hp .cv hw⟩
    rw [loopTick_eng_of_lt hp _ hlt]
    rfl

/-- A run of the engine says nothing of the sequencing registers. -/
theorem CvEngineRun.of_seq {P : Params} {s t : State} {q : Sequencing} (h : CvEngineRun P { s with seq := q } t)
    (q' : Sequencing) : CvEngineRun P s { t with seq := q' } := h

/-! ## The CV dispatch (40_tick_dispatcher.md R99) -/

section CvDispatch

variable (P : Params) (gated : Bool) {s : State}

theorem cvDispatch_of_counting (h : 2 ≤ s.seq.cvDivCnt) :
    cvDispatch P gated s = { s with seq := { s.seq with cvDivCnt := s.seq.cvDivCnt - 1 } } := by
  rcases cvDispatch_cases P gated s with ⟨-, e⟩ | ⟨h0, -⟩ | ⟨h0, -⟩
  · exact e
  · omega
  · omega

theorem cvDispatch_of_paused (h : s.seq.cvDivCnt = 1) (hp : s.seq.paused = true) :
    cvDispatch P true s = { s with seq := { s.seq with cvDivCnt := P.cvDiv } } := by
  rcases cvDispatch_cases P true s with ⟨h0, -⟩ | ⟨-, -, -, e⟩ | ⟨-, hopen, -⟩
  · omega
  · exact e
  · simp [hp] at hopen

theorem cvDispatch_free_of_expired (h : s.seq.cvDivCnt = 1) :
    cvDispatch P false s = cvTick P { s with seq := { s.seq with cvDivCnt := P.cvDiv } } := by
  rcases cvDispatch_cases P false s with ⟨h0, -⟩ | ⟨-, hgate, -⟩ | ⟨-, -, e⟩
  · omega
  · cases hgate
  · exact e

theorem cvDispatch_gated_of_expired (h : s.seq.cvDivCnt = 1) (hp : s.seq.paused = false) :
    cvDispatch P true s =
      (let t := cvTick P { s with seq := { s.seq with cvDivCnt := P.cvDiv } }
       { t with seq := { t.seq with paused := true } }) := by
  rcases cvDispatch_cases P true s with ⟨h0, -⟩ | ⟨-, -, hpaused, -⟩ | ⟨-, -, e⟩
  · omega
  · simp [hp] at hpaused
  · exact e

end CvDispatch

/-- Settles O55: without the gate the dispatch counts, or expires and runs the engine. -/
theorem freeCvDispatchDividesThenRuns : Obligations.FreeCvDispatchDividesThenRuns := by
  unfold Obligations.FreeCvDispatchDividesThenRuns
  intro s hw _
  refine ⟨fun h2 => congrArg _ (cvDispatch_of_counting _ false h2), fun h1 => ?runs⟩
  case runs =>
    refine ⟨_, congrArg Host.Outcome.next (cvDispatch_free_of_expired _ h1), cvTick_seq _ _, ?_⟩
    exact (cvTick_run _ (s := { s with seq := { s.seq with cvDivCnt := Config.params.cvDiv } }) hw).of_seq _

/-- Settles O56: with the gate an expiry on a paused engine only reloads, and a run ends paused. -/
theorem gatedCvDispatchRunsOnceThenPauses : Obligations.GatedCvDispatchRunsOnceThenPauses := by
  unfold Obligations.GatedCvDispatchRunsOnceThenPauses
  intro s hw _
  refine ⟨fun h2 => congrArg _ (cvDispatch_of_counting _ true h2),
    fun h1 hp => congrArg _ (cvDispatch_of_paused _ h1 hp), fun h1 hp => ?runs⟩
  case runs =>
    refine ⟨_, congrArg Host.Outcome.next (cvDispatch_gated_of_expired _ h1 hp), by simp, ?_⟩
    exact (cvTick_run _ (s := { s with seq := { s.seq with cvDivCnt := Config.params.cvDiv } }) hw).of_seq _

/-! ## Calibration (46_calibrate.md R190 to R193) -/

theorem calValue_sentinel (P : Params) (v : Sample) : (calValue P P.sentinel v).toNat = v.toNat := by
  rw [calValue, if_pos rfl, BitVec.zeroExtend, BitVec.toNat_setWidth_of_le (by decide)]

theorem calValue_toNat_of_le {P : Params} {g : BitVec 16} (h : g.toNat ≤ 1023) (v : Sample) :
    (calValue P g v).toNat = (g.toNat + v.toNat) / 2 := by
  have hv := v.isLt
  rw [calValue, if_neg (Params.ne_sentinel h), BitVec.toNat_ofNat]
  exact Nat.mod_eq_of_lt (by omega)

theorem calTick_echo (P : Params) {s : State} (hw : s.mem.wf P = true) :
    memRead P .inbuf s.eng.loopPointer.toNat (calTick P s) = s.env.pins.adcCv ∧
      memRead P .outbuf s.eng.loopPointer.toNat (calTick P s) = s.env.pins.adcCv := by
  have hw' := memWrite_wf P (M := .inbuf) s.eng.loopPointer.isLt s.env.pins.adcCv s hw
  simp only [calTick, memRead_advancePtr, memRead_setDac, memRead_calAverage]
  rw [memRead_memWrite_other P (.inl (by decide)), memRead_memWrite_same P .inbuf _ _ _ hw]
  exact ⟨rfl, memRead_memWrite_same P .outbuf _ _ _ hw'⟩

/-- Settles O58: one tick is two writes of the sample, `calValue`, the full scale and the advance. -/
theorem calibrationTickEchoesAndDrivesFullScale : Obligations.CalibrationTickEchoesAndDrivesFullScale := by
  unfold Obligations.CalibrationTickEchoesAndDrivesFullScale
  intro s hw hprimed raw
  obtain ⟨hin, hout⟩ := calTick_echo Config.params hw
  have hle := calValue_le raw hprimed
  refine ⟨calTick Config.params s, rfl, hin, hout, ?kept, rfl, ?average, hle, Params.ne_sentinel hle, rfl, rfl, rfl⟩
  case kept =>
    intro M i h
    exact calTick_memRead _ s (by rwa [not_and_or, not_or] at h)
  case average =>
    rcases hprimed with hmark | hdomain
    · rw [if_pos hmark, calTick_eng, hmark]
      exact calValue_sentinel _ raw
    · rw [if_neg (Params.ne_sentinel hdomain), calTick_eng]
      exact calValue_toNat_of_le hdomain raw

end Sys2Proof.Machine
end
